-- ==== Sys2Proof/Word.lean ====
section
/-! DEFINITION. The word types of the OTP fuse-array controller (spec/00_scope.md R3, R6; spec/20_memory.md R31). -/

namespace Sys2Proof

/-- One byte of the backing medium (R31). -/
abbrev Byte := BitVec 8

/-- One fuse word, and the selector (R15, R16): `u32`. -/
abbrev Word := BitVec 32

/-- The value a bus read returns and a bus write carries (R54): `u64`. -/
abbrev BusValue := BitVec 64

/-- A byte offset inside the 4 KiB register window (R54): 12 bits. -/
abbrev Offset := BitVec 12

/-- The stimulus word of R55: 15 bits, `k` in 14:13, `d` in 12, `o` in 11:0. -/
abbrev StimulusWord := BitVec 15

/-- A store of `w`-bit units by address: entries in strictly rising order of address, none of them the value an
unlisted address reads as (`Memory.wf`). `Memory 8` is a list of `Host.Cell`. (DESIGN CHOICE, log 17: safe, the lists in
this form and the spec's arrays stand one to one.) -/
abbrev Memory (w : Nat) := List (Nat × BitVec w)

end Sys2Proof
end

