-- ==== Sys2Proof/Config.lean ====
section
/-! DEFINITION. The named constants of spec/00_scope.md R3, and the open values of R4 and R91 as constants without a
body. -/

namespace Sys2Proof.Config

/-- `CAPACITY`: the number of fuse words (R3). -/
def capacity : Nat := 1024

/-- `FUSE_BITS`: the width of a fuse word (R3). -/
def fuseBits : Nat := 32

/-- `FUSE_BYTES`: the bytes one fuse word takes in the medium (R3). -/
def fuseBytes : Nat := 4

/-- `WINDOW_BYTES`: the size of the register window (R3). -/
def windowBytes : Nat := 0x1000

/-- `ADDR_SELECTOR`: the window offset of SELECTOR (R3). -/
def addrSelector : Offset := 0x000

/-- `ADDR_DATA`: the window offset of DATA (R3). -/
def addrData : Offset := 0x004

/-- `SIZE_MIN`: the least access size the router delivers, in bytes (R3). -/
def sizeMin : Nat := 4

/-- `SIZE_MAX`: the greatest access size the router delivers, in bytes (R3). -/
def sizeMax : Nat := 8

/-- `SELECTOR_BITS`: the width of the selector (R3). -/
def selectorBits : Nat := 32

/-- `VALID_COUNT_BITS`: the width of `valid_count` (R3). -/
def validCountBits : Nat := 16

/-- `BUS_DATA_BITS`: the width of a bus value (R3). -/
def busDataBits : Nat := 64

/-- The bound on a medium's length: `L < 2^64` (R86). -/
def mediumLengthBound : Nat := 2 ^ 64

/-- `SELECTOR_INIT` (R4, R15, D10, U5): the selector's value at creation, one unspecified 32-bit value. It has no body,
so no proof can use what it is. (DESIGN CHOICE, log 5: unsafe only for a claim that compares two controllers, which
hardware may create with different values.) -/
opaque selectorInit : Word

/-- The byte at `offset` that the fallible call numbered `call` leaves in the medium when it is a `write_at` that fails
(R91, D16, U2): "each may be the old byte, the new byte, or anything else". It has no body. (DESIGN CHOICE, log 10:
safe within one session.) -/
opaque failedWriteByte : (call offset : Nat) → Byte

end Sys2Proof.Config
end

