-- ==== Sys2Proof/Syntax.lean ====
section
/-! DEFINITION. The stimuli the controller reacts to (spec/30_encoding.md R53 to R57): the nine operations as one
inductive, the medium an attach carries, and the form in which a stimulus is delivered. -/

namespace Sys2Proof

/-- The backing medium, an agent outside the controller with state of its own (spec/41_lifecycle.md R86). -/
structure Medium where
  /-- `L`, its length in bytes; fixed for a session (R86). -/
  length : Nat
  /-- Its bytes at offsets `0 .. L-1`; an offset below `L` with no entry holds 0 (log 17). -/
  cells : Memory 8
  /-- Whether it can be written (R87). -/
  writable : Bool
  /-- The failure oracle (R86): the numbers of the fallible calls that return `fail`, counted from 0 over the medium's
  life. (DESIGN CHOICE, log 11: safe, every oracle's answers in a finite run are those of such a list.) -/
  failing : List Nat
  /-- How many fallible calls it has answered: the oracle's position (log 11). -/
  calls : Nat
  deriving DecidableEq, Repr

/-- A medium of no bytes, read-only, whose calls all succeed: what stands in the operand place of a stimulus that
carries no medium, and in the host's operand bits of zeros (log 3). -/
def Medium.blank : Medium := { length := 0, cells := [], writable := false, failing := [], calls := 0 }

/-- The nine operations, in the order of R57's table. -/
inductive Operation where
  | rdSelector
  | wrSelector
  | rdData
  | wrData
  | rdInvalid
  | wrInvalid
  | reset
  | attachNone
  | attachMedium
  deriving DecidableEq, Repr

/-- One operation with its operands (the "operands" of spec/opcode_table.json). -/
inductive Instr where
  /-- Bus read at offset 0x000 (R67). -/
  | rdSelector (size : Nat)
  /-- Bus write at offset 0x000 (R68). -/
  | wrSelector (size : Nat) (value : BusValue)
  /-- Bus read at offset 0x004 (R69). -/
  | rdData (size : Nat)
  /-- Bus write at offset 0x004 (R70). -/
  | wrData (size : Nat) (value : BusValue)
  /-- Bus read at an undecoded offset (R71). -/
  | rdInvalid (offset : Offset) (size : Nat)
  /-- Bus write at an undecoded offset (R72). -/
  | wrInvalid (offset : Offset) (size : Nat) (value : BusValue)
  /-- The platform's reset (R97). -/
  | reset
  /-- The platform's attach with no medium (R92). -/
  | attachNone
  /-- The platform's attach with a medium (R93). -/
  | attachMedium (medium : Medium)
  deriving DecidableEq, Repr

/-- The operation an instruction is, without its operands. -/
def Instr.operation : Instr → Operation
  | .rdSelector _ => .rdSelector
  | .wrSelector _ _ => .wrSelector
  | .rdData _ => .rdData
  | .wrData _ _ => .wrData
  | .rdInvalid _ _ => .rdInvalid
  | .wrInvalid _ _ _ => .wrInvalid
  | .reset => .reset
  | .attachNone => .attachNone
  | .attachMedium _ => .attachMedium

/-- The bus accesses (R53); the others are the platform's. -/
def Operation.isBus : Operation → Bool
  | .rdSelector => true
  | .wrSelector => true
  | .rdData => true
  | .wrData => true
  | .rdInvalid => true
  | .wrInvalid => true
  | .reset => false
  | .attachNone => false
  | .attachMedium => false

/-- The bus accesses that return a value (R54). -/
def Operation.isRead : Operation → Bool
  | .rdSelector => true
  | .wrSelector => false
  | .rdData => true
  | .wrData => false
  | .rdInvalid => true
  | .wrInvalid => false
  | .reset => false
  | .attachNone => false
  | .attachMedium => false

/-- A stimulus as it is delivered: the word of R55, with the operands that "travel beside it". An operand that the
word's row does not take is ignored. The defaults are those of the script notation (R63: "without it `size` is 4").
(DESIGN CHOICE, log 3: safe, no bus carries the word.) -/
structure Stimulus where
  word : StimulusWord
  size : Nat := Config.sizeMin
  value : BusValue := 0
  medium : Medium := Medium.blank
  deriving DecidableEq, Repr

/-- Why a stimulus names no operation. -/
inductive DecodeError where
  /-- Kind `11`, reserved (R60). -/
  | reservedKind
  deriving DecidableEq, Repr

end Sys2Proof
end

