-- ==== Sys2Proof/WellFormed.lean ====
section
/-! DEFINITION. Which operand values the spec gives an operation (spec/30_encoding.md R54, R57; spec/41_lifecycle.md
R86), and the canonical form of a store. -/

namespace Sys2Proof

/-- The entries have addresses that are at least `lo` and strictly rise, and none holds 0. -/
def Memory.wfFrom {w : Nat} (lo : Nat) : Memory w → Bool
  | [] => true
  | (k, v) :: rest => decide (lo ≤ k) && decide (v ≠ 0) && Memory.wfFrom (k + 1) rest

/-- The one canonical form of a store (log 17): equal stores are equal lists. -/
def Memory.wf {w : Nat} (m : Memory w) : Bool := Memory.wfFrom 0 m

/-- Every entry lies below `bound`. -/
def Memory.below {w : Nat} (bound : Nat) (m : Memory w) : Bool := m.all fun e => decide (e.1 < bound)

/-- A medium is a list of `L` bytes with `0 <= L < 2^64` (R86). -/
def Medium.wf (m : Medium) : Bool :=
  Memory.wf m.cells && Memory.below m.length m.cells && decide (m.length < Config.mediumLengthBound)

/-- The sizes the router delivers: 4 to 8, both included (R36). -/
def sizeDelivered (size : Nat) : Bool := decide (Config.sizeMin ≤ size) && decide (size ≤ Config.sizeMax)

/-- The offsets that select a register (R35). -/
def offsetDecoded (offset : Offset) : Bool := offset == Config.addrSelector || offset == Config.addrData

/-- The operands are values the spec gives the operation. -/
def Instr.wf : Instr → Bool
  | .rdSelector size => sizeDelivered size
  | .wrSelector size _ => sizeDelivered size
  | .rdData size => sizeDelivered size
  | .wrData size _ => sizeDelivered size
  | .rdInvalid offset size => !offsetDecoded offset && sizeDelivered size
  | .wrInvalid offset size _ => !offsetDecoded offset && sizeDelivered size
  | .reset => true
  | .attachNone => true
  | .attachMedium medium => medium.wf

end Sys2Proof
end

