-- ==== Sys2Proof/Decode.lean ====
section
/-! DEFINITION. Decoding of a stimulus by the table of spec/30_encoding.md R57, and the encoder by the field layout of
R55. The word is the spec's own descriptive form (D3): no bus carries it. -/

namespace Sys2Proof

/-- One row of R57's table: it matches `w` when `(w & mask) = pattern`. -/
structure OpcodeRow where
  operation : Operation
  pattern : StimulusWord
  mask : StimulusWord
  deriving DecidableEq, Repr

def OpcodeRow.matchesWord (r : OpcodeRow) (w : StimulusWord) : Bool := w &&& r.mask == r.pattern

/-- R57's table, top to bottom: the first matching row decides. -/
def opcodeTable : List OpcodeRow := [
  ⟨.rdSelector, 0x0000, 0x7FFF⟩,
  ⟨.wrSelector, 0x1000, 0x7FFF⟩,
  ⟨.rdData, 0x0004, 0x7FFF⟩,
  ⟨.wrData, 0x1004, 0x7FFF⟩,
  ⟨.rdInvalid, 0x0000, 0x7000⟩,
  ⟨.wrInvalid, 0x1000, 0x7000⟩,
  ⟨.reset, 0x2000, 0x6000⟩,
  ⟨.attachNone, 0x4000, 0x7000⟩,
  ⟨.attachMedium, 0x5000, 0x7000⟩]

/-- The operation a word selects; none for the reserved kind (R57, R60). -/
def decodeOperation (w : StimulusWord) : Option Operation :=
  (opcodeTable.find? fun r => r.matchesWord w).map fun r => r.operation

/-- The field `o`, bits 11:0 (R55). -/
def offsetField (w : StimulusWord) : Offset := w.extractLsb' 0 12

/-- Decoding depends on the word alone (R58); the operands are handed on as they came. -/
def decode (t : Stimulus) : Except DecodeError Instr :=
  match decodeOperation t.word with
  | none => .error .reservedKind
  | some .rdSelector => .ok (.rdSelector t.size)
  | some .wrSelector => .ok (.wrSelector t.size t.value)
  | some .rdData => .ok (.rdData t.size)
  | some .wrData => .ok (.wrData t.size t.value)
  | some .rdInvalid => .ok (.rdInvalid (offsetField t.word) t.size)
  | some .wrInvalid => .ok (.wrInvalid (offsetField t.word) t.size t.value)
  | some .reset => .ok .reset
  | some .attachNone => .ok .attachNone
  | some .attachMedium => .ok (.attachMedium t.medium)

/-- Whether the stimulus is an attach (kind `10`), a reset (kind `01`) or a bus access (kind `00`): the field `k`, bits
14:13 (R55). -/
def kindField (w : StimulusWord) : BitVec 2 := w.extractLsb' 13 2

/-- The stimulus that the host's table word stands for: bits 14:0 of `w`, the operands at their defaults (log 3). A
number of more than 15 bits is no stimulus word. -/
def Stimulus.ofTableWord (w : Nat) : Option Stimulus :=
  if w < 2 ^ 15 then some { word := BitVec.ofNat 15 w } else none

/-- The operation the decoder reads from the table word `w` (log 3: the word has 15 bits, so `nbits` adds nothing). -/
def decodeTableWord (_nbits w : Nat) : Option Instr :=
  match Stimulus.ofTableWord w with
  | none => none
  | some t =>
    match decode t with
    | .ok i => some i
    | .error _ => none

/-- The word with fields `k`, `d` and `o` (R55). -/
def stimulusWord (k : BitVec 2) (d : BitVec 1) (o : Offset) : StimulusWord := k ++ d ++ o

/-- Format B: kind `00`, direction, offset; 0 is a read and 1 a write (R54, R55). -/
def busWord (d : BitVec 1) (o : Offset) : StimulusWord := stimulusWord 0b00 d o

/-- The delivered form of an operation. Ignored bits are "written as 0 by convention" (R55). -/
def encode : Instr → Stimulus
  | .rdSelector size => { word := busWord 0 Config.addrSelector, size := size }
  | .wrSelector size value => { word := busWord 1 Config.addrSelector, size := size, value := value }
  | .rdData size => { word := busWord 0 Config.addrData, size := size }
  | .wrData size value => { word := busWord 1 Config.addrData, size := size, value := value }
  | .rdInvalid offset size => { word := busWord 0 offset, size := size }
  | .wrInvalid offset size value => { word := busWord 1 offset, size := size, value := value }
  | .reset => { word := stimulusWord 0b01 0 0 }
  | .attachNone => { word := stimulusWord 0b10 0 0 }
  | .attachMedium medium => { word := stimulusWord 0b10 1 0, medium := medium }

/-- The pseudo-operation `BLOW i, v` (R64): two stimuli. -/
def blow (i : Word) (v : BusValue) : List Instr :=
  [.wrSelector Config.sizeMin (i.setWidth 64), .wrData Config.sizeMin v]

/-- The pseudo-operation `SENSE i` (R64): two stimuli. -/
def sense (i : Word) : List Instr :=
  [.wrSelector Config.sizeMin (i.setWidth 64), .rdData Config.sizeMin]

end Sys2Proof
end

