-- ==== Sys2Proof/Machine/State.lean ====
section
/-! DEFINITION. The state of the controller (spec/10_state.md R15 to R20), what a run shows outside
(spec/70_reset_and_hazards.md R135), and the reasons a step stops. -/

namespace Sys2Proof.Machine

/-- The position in the lifecycle (R20). -/
inductive Phase where
  | unattached
  | volatileUnpopulated
  | volatilePopulated
  | withMedium
  | failed
  deriving DecidableEq, Repr

/-- The four attach errors (spec/60_exceptions.md R103). -/
inductive AttachError where
  | permissionDenied
  | sizeQueryFailed
  | mediumTooLarge
  | loadFailed
  deriving DecidableEq, Repr

/-- A record of the diagnostic output (R110). -/
inductive Diagnostic where
  | outOfBoundsRead (selector : Word)
  /-- The value as delivered, before it is narrowed (R110). -/
  | outOfBoundsWrite (selector : Word) (value : BusValue)
  | invalidRead (offset : Offset)
  /-- The written value is not recorded (R110). -/
  | invalidWrite (offset : Offset)
  deriving DecidableEq, Repr

/-- The two categories of message (R107). -/
inductive DiagnosticCategory where
  | outOfBounds
  | invalidRegister
  deriving DecidableEq, Repr

/-- The five calls of the medium (spec/41_lifecycle.md R86). -/
inductive MediumCallKind where
  | queryWriteCapability
  | requestPermissions
  | length
  | readAll
  | writeAt
  deriving DecidableEq, Repr

/-- A call made to the medium, with its arguments and its answer (R87 to R91); `ok` is false for `fail`. -/
inductive MediumCall where
  | queryWriteCapability (answer : Bool)
  | requestPermissions (read write : Bool) (ok : Bool)
  /-- `none` for `fail`. -/
  | length (answer : Option Nat)
  | readAll (len : Nat) (ok : Bool)
  | writeAt (offset : Nat) (bytes : List Byte) (ok : Bool)
  deriving DecidableEq, Repr

/-- The controller's six elements (R15 to R20), then what a run shows outside (R135), then the stimuli still to be
delivered. -/
structure State where
  /-- The lifecycle position (R20). -/
  phase : Phase
  /-- The fuse index a DATA access uses (R15). -/
  selector : Word
  /-- The fuse array (R16): word `i` at key `i`, for `i < CAPACITY`. -/
  fuses : Memory 32
  /-- `valid_count` (R17). -/
  validCount : BitVec 16
  /-- The attached medium, with the medium's own state as it now is (R18, R86). -/
  backing : Option Medium
  /-- `read_only` (R19). -/
  readOnly : Bool
  /-- The attach result, where it is an error (R103, R135; log 18). -/
  attachError : Option AttachError
  /-- The medium of a failed attach, as it was left (R96, R135; log 16). -/
  rejected : Option Medium
  /-- The results of the bus reads, oldest first (R54, R135; log 18). -/
  readResults : List BusValue
  /-- The diagnostic output, oldest first (R107). -/
  diagnostics : List Diagnostic
  /-- The calls made to the medium, oldest first (R51; log 18). -/
  mediumCalls : List MediumCall
  /-- The stimuli still to be delivered, the next one first: the harness's list, the model's own (R14; log 1). -/
  pending : List Stimulus
  deriving DecidableEq, Repr

/-- No stimulus stops the controller with a fault: a bus access always completes (spec/40_register_access.md R76), and an
attach error is a next state in phase `Failed` (spec/60_exceptions.md R105). So there is no reason (log 24). -/
inductive Fault
  deriving DecidableEq, Repr

/-- Why the model gives a step no meaning (spec/00_scope.md R10: refusal "errs toward unprovable"). Each is safe. -/
inductive Refusal where
  /-- Raised by `exec` for an operation not modelled yet; none is left. Safe. -/
  | notModelled (mnemonic : String)
  /-- Raised by `step` when no stimulus is pending: the run has ended (spec/70_reset_and_hazards.md R135; log 2). Safe. -/
  | noStimulus
  /-- Raised by `step` for a stimulus word of the reserved kind `11` (spec/30_encoding.md R60). Safe. -/
  | reservedKind
  /-- Raised by the bus operations for a size the router does not deliver (spec/20_memory.md R36; log 13). Safe. -/
  | sizeNotDelivered (size : Nat)
  /-- Raised by every operation in a phase that does not accept it (spec/41_lifecycle.md R85,
  spec/40_register_access.md R77; log 15). Safe. -/
  | notAcceptedInPhase (phase : Phase)
  /-- Raised by RD_INVALID and WR_INVALID built with an offset that selects a register, which the decoder never does
  (spec/40_register_access.md R71, R72, Operands; log 23). Safe. -/
  | offsetIsDecoded (offset : Offset)
  deriving DecidableEq, Repr

/-- The creation state (spec/10_state.md R29), in which a run starts (spec/70_reset_and_hazards.md R135; log 4). What the
RESET operation leaves is another matter: `execReset`. The selector is the open parameter SELECTOR_INIT (log 5). -/
def State.reset : State where
  phase := .unattached
  selector := Config.selectorInit
  fuses := []
  validCount := 0
  backing := none
  readOnly := false
  attachError := none
  rejected := none
  readResults := []
  diagnostics := []
  mediumCalls := []
  pending := []

end Sys2Proof.Machine
end

