-- ==== Sys2Proof/Machine/Operands.lean ====
section
/-! DEFINITION. Operand assembly and the arithmetic of the rules (spec/00_scope.md R6, R8; spec/30_encoding.md R56;
spec/40_register_access.md R75, R78; spec/41_lifecycle.md R94). -/

namespace Sys2Proof.Machine

/-- `trunc_32(v)`: bits 31:0 (R6). -/
def trunc32 (v : BusValue) : Word := v.setWidth 32

/-- `zext_64(v)`: zeros above (R6). -/
def zext64 (v : Word) : BusValue := v.setWidth 64

/-- `le32(w)`: the four bytes of a word, least significant first (R8, R33; the spec's decision D5, log 8). -/
def le32 (w : Word) : List Byte :=
  [w.extractLsb' 0 8, w.extractLsb' 8 8, w.extractLsb' 16 8, w.extractLsb' 24 8]

/-- `word_le(b0, b1, b2, b3)`: the inverse of `le32` (R8). -/
def wordLe (b0 b1 b2 b3 : Byte) : Word := b3 ++ b2 ++ b1 ++ b0

/-- `ceil_div(a, b)` over the natural numbers, without wrap-around (R6, R94). -/
def ceilDiv (a b : Nat) : Nat := (a + (b - 1)) / b

/-- The valid count a medium of length `len` would give, before any narrowing (R94). -/
def countOfLength (len : Nat) : Nat := ceilDiv len Config.fuseBytes

/-- The medium byte offset of fuse `i` (R32, R78). -/
def byteOffset (i : Nat) : Nat := Config.fuseBytes * i

/-- What reaches an initiator that asked for `size` bytes: `trunc_(8*size)(r)`, shown at 64 bits (R34). -/
def initiatorView (size : Nat) (r : BusValue) : BusValue := (r.setWidth (8 * size)).setWidth 64

/-- The category of a record (R108, R109). -/
def Diagnostic.category : Diagnostic → DiagnosticCategory
  | .outOfBoundsRead _ => .outOfBounds
  | .outOfBoundsWrite _ _ => .outOfBounds
  | .invalidRead _ => .invalidRegister
  | .invalidWrite _ => .invalidRegister

/-- Which of the five calls it is (R86). -/
def MediumCall.kind : MediumCall → MediumCallKind
  | .queryWriteCapability _ => .queryWriteCapability
  | .requestPermissions _ _ _ => .requestPermissions
  | .length _ => .length
  | .readAll _ _ => .readAll
  | .writeAt _ _ _ => .writeAt

end Sys2Proof.Machine
end

