-- ==== Sys2Proof/Machine/Flags.lean ====
section
/-! DEFINITION. The conditions the operations test. The controller has no flags (spec/10_state.md R23): these are the
bounds checker (spec/20_memory.md R44), the write-through condition (spec/40_register_access.md R73) and the phases that
accept a stimulus (spec/41_lifecycle.md R85). -/

namespace Sys2Proof.Machine

/-- `in_bounds`: `selector < zext_32(valid_count)`, unsigned, at 32 bits (R44). -/
def State.inBounds (s : State) : Bool := decide (s.selector < s.validCount.setWidth 32)

/-- The phases that accept a bus access (R77). -/
def Phase.acceptsBus : Phase → Bool
  | .unattached => false
  | .volatileUnpopulated => true
  | .volatilePopulated => true
  | .withMedium => true
  | .failed => false

/-- The phases that accept RESET (R85, R97). -/
def Phase.acceptsReset : Phase → Bool
  | .unattached => false
  | .volatileUnpopulated => true
  | .volatilePopulated => true
  | .withMedium => true
  | .failed => false

/-- The one phase that accepts an attach (R85). -/
def Phase.acceptsAttach : Phase → Bool
  | .unattached => true
  | .volatileUnpopulated => false
  | .volatilePopulated => false
  | .withMedium => false
  | .failed => false

end Sys2Proof.Machine
end

