-- ==== Sys2Proof/Machine/Ops.lean ====
section
/-! DEFINITION. The named operations over stores, the medium's port, the state's elements and outputs, the attach error,
and the acceptance of a stimulus. -/

namespace Sys2Proof

/-- What an unlisted address reads as: 0 (log 17). -/
def Memory.unlisted {w : Nat} : BitVec w := 0

/-- The unit at address `a`. -/
def Memory.read {w : Nat} : Memory w → Nat → BitVec w
  | [], _ => Memory.unlisted
  | (k, v) :: rest, a => if k = a then v else Memory.read rest a

/-- Store `v` at address `a`, keeping the canonical form: storing what an unlisted address reads as removes the entry. -/
def Memory.write {w : Nat} : Memory w → Nat → BitVec w → Memory w
  | [], a, v => if v = Memory.unlisted then [] else [(a, v)]
  | (k, u) :: rest, a, v =>
    if a < k then
      if v = Memory.unlisted then (k, u) :: rest else (a, v) :: (k, u) :: rest
    else if a = k then
      if v = Memory.unlisted then rest else (a, v) :: rest
    else (k, u) :: Memory.write rest a v

/-- Store a list of bytes from `offset` up; bytes at or past `len` are dropped (R91). -/
def Memory.storeBytes (len : Nat) : Nat → List Byte → Memory 8 → Memory 8
  | _, [], m => m
  | offset, b :: bs, m =>
    Memory.storeBytes len (offset + 1) bs (if offset < len then Memory.write m offset b else m)

/-- The medium's byte at offset `a`, for `a < L` (R86). -/
def Medium.byte (m : Medium) (a : Nat) : Byte := Memory.read m.cells a

/-- Whether the medium's next fallible call returns `ok` (R86). -/
def Medium.nextOk (m : Medium) : Bool := !m.failing.contains m.calls

/-- The medium after it has answered one fallible call. -/
def Medium.answered (m : Medium) : Medium := { m with calls := m.calls + 1 }

/-- The byte a loaded word takes at offset `j`: the medium's for `j < L`, else 0 (R93 `pad`, R95; the spec's decision
D14, log 9). -/
def Medium.pad (m : Medium) (j : Nat) : Byte := if j < m.length then m.byte j else 0

/-- The fuse word the load makes for index `i` (R95). -/
def Medium.word (m : Medium) (i : Nat) : Word :=
  let j := Machine.byteOffset i
  Machine.wordLe (m.pad j) (m.pad (j + 1)) (m.pad (j + 2)) (m.pad (j + 3))

/-- The four bytes a `write_at` at `offset` leaves, were the medium long enough: the given ones when the call returns
`ok`, free ones when it fails (R91; U2, log 10). -/
def Medium.writtenBytes (m : Medium) (offset : Nat) (bytes : List Byte) : List Byte :=
  if m.nextOk then bytes
  else [Config.failedWriteByte m.calls offset, Config.failedWriteByte m.calls (offset + 1),
    Config.failedWriteByte m.calls (offset + 2), Config.failedWriteByte m.calls (offset + 3)]

/-- The medium after `write_at(offset, bytes)`: the length does not change and bytes past it are dropped (R91; the
spec's decision D17, log 9). -/
def Medium.writeAt (m : Medium) (offset : Nat) (bytes : List Byte) : Medium :=
  { m.answered with cells := Memory.storeBytes m.length offset (m.writtenBytes offset bytes) m.cells }

end Sys2Proof

namespace Sys2Proof.Machine

/-- `fuses[i]` (R7). -/
def State.readFuse (s : State) (i : Nat) : Word := Memory.read s.fuses i

/-- `fuses[i] <- v` (R7). -/
def State.writeFuse (s : State) (i : Nat) (v : Word) : State := { s with fuses := Memory.write s.fuses i v }

/-- `selector <- v` (R68). -/
def State.setSelector (s : State) (v : Word) : State := { s with selector := v }

/-- `return v`: the read result the router receives (R9). -/
def State.respond (s : State) (v : BusValue) : State := { s with readResults := s.readResults ++ [v] }

/-- `diag d`: append one record (R9, R107). -/
def State.diagnose (s : State) (d : Diagnostic) : State := { s with diagnostics := s.diagnostics ++ [d] }

/-- A call to the medium, with its answer, is made (R51). -/
def State.callMedium (s : State) (c : MediumCall) : State := { s with mediumCalls := s.mediumCalls ++ [c] }

/-- `raise e`: the one way an attach ends in an error. The phase becomes `Failed` and stays there; nothing is saved, no
handler runs, and there is no return (R9, R96, R105). The medium, `m` as it now is, goes back to the platform (log 16). -/
def State.raiseAttachError (s : State) (e : AttachError) (m : Medium) : State :=
  { s with phase := .failed, attachError := some e, rejected := some m }

/-- `write_through(i)` (R73): the call's answer is ignored (the spec's decision D16, log 10). -/
def State.writeThrough (s : State) (i : Nat) : State :=
  match s.backing with
  | none => s
  | some m =>
    if s.readOnly then s
    else
      { s.callMedium (.writeAt (byteOffset i) (le32 (s.readFuse i)) m.nextOk) with
        backing := some (m.writeAt (byteOffset i) (le32 (s.readFuse i))) }

/-- Deliver a bus access: a size outside 4 to 8 is never delivered (R36), and the phase must accept it (R77); then the
access completes (R76). -/
def busAccess (size : Nat) (s : State) (effect : State → State) : Host.Outcome State Fault Refusal :=
  if !sizeDelivered size then .refused (.sizeNotDelivered size)
  else if !s.phase.acceptsBus then .refused (.notAcceptedInPhase s.phase)
  else .next (effect s)

/-- Deliver a lifecycle stimulus in a phase that accepts it (R85). -/
def lifecycle (accepted : Bool) (s : State) (effect : State → State) : Host.Outcome State Fault Refusal :=
  if !accepted then .refused (.notAcceptedInPhase s.phase) else .next (effect s)

end Sys2Proof.Machine
end

