-- ==== Sys2Proof/Machine/Data.lean ====
section
/-! DEFINITION. The DATA operations (spec/40_register_access.md, section 2). -/

namespace Sys2Proof.Machine

/-- What RD_DATA does (R69): the selected fuse, or a record and 0. -/
def readData (s : State) : State :=
  if s.inBounds then s.respond (zext64 (s.readFuse s.selector.toNat))
  else (s.diagnose (.outOfBoundsRead s.selector)).respond 0

/-- RD_DATA (R69). -/
def execRdData (size : Nat) (s : State) : Host.Outcome State Fault Refusal :=
  busAccess size s readData

/-- What WR_DATA does (R70): OR into the selected fuse and write the word through, or a record and no other change. -/
def writeData (value : BusValue) (s : State) : State :=
  let i := s.selector.toNat
  if s.inBounds then (s.writeFuse i (s.readFuse i ||| trunc32 value)).writeThrough i
  else s.diagnose (.outOfBoundsWrite s.selector value)

/-- WR_DATA (R70, R73). -/
def execWrData (size : Nat) (value : BusValue) (s : State) : Host.Outcome State Fault Refusal :=
  busAccess size s (writeData value)

end Sys2Proof.Machine
end

