-- ==== Sys2Proof/Machine/Lifecycle.lean ====
section
/-! DEFINITION. The lifecycle operations (spec/41_lifecycle.md, sections 3 and 4), and the platform's duties before a
bus access (spec/70_reset_and_hazards.md R123). -/

namespace Sys2Proof.Machine

/-- What RESET does (R97): with no medium, zero-fill and full count; with one, nothing at all. The selector stays (the
spec's decision D11, log 7). -/
def resetController (s : State) : State :=
  match s.backing with
  | none =>
    { s with fuses := [], validCount := BitVec.ofNat 16 Config.capacity, phase := .volatilePopulated }
  | some _ => s

/-- RESET (R97). -/
def execReset (s : State) : Host.Outcome State Fault Refusal :=
  lifecycle s.phase.acceptsReset s resetController

/-- What ATTACH_NONE does (R92). -/
def attachNoMedium (s : State) : State :=
  { s with backing := none, readOnly := false, validCount := 0, phase := .volatileUnpopulated }

/-- ATTACH_NONE (R92). -/
def execAttachNone (s : State) : Host.Outcome State Fault Refusal :=
  lifecycle s.phase.acceptsAttach s attachNoMedium

/-- `fuses[i] <- the medium's word i` for `i` in `0 .. n-1` (R93, R95); no other word is written. -/
def loadWords (m : Medium) : Nat → Memory 32 → Memory 32
  | 0, fuses => fuses
  | n + 1, fuses => Memory.write (loadWords m n fuses) n (m.word n)

/-- Fourth step of the attach, `read_all(buf, L)` and the load (R90, R93, R95). -/
def attachLoad (m : Medium) (s : State) : State :=
  let s := s.callMedium (.readAll m.length m.nextOk)
  if m.nextOk then
    { s with
      fuses := loadWords m.answered (countOfLength m.length) s.fuses
      backing := some m.answered
      phase := .withMedium }
  else s.raiseAttachError .loadFailed m.answered

/-- Third step, the capacity check on the count at full width, then the count is stored (R93, R94). -/
def attachCount (m : Medium) (s : State) : State :=
  let n := countOfLength m.length
  if Config.capacity < n then s.raiseAttachError .mediumTooLarge m
  else attachLoad m { s with validCount := BitVec.ofNat 16 n }

/-- Second step, `length()` (R89, R93). -/
def attachSize (m : Medium) (s : State) : State :=
  if m.nextOk then attachCount m.answered (s.callMedium (.length (some m.length)))
  else (s.callMedium (.length none)).raiseAttachError .sizeQueryFailed m.answered

/-- First step, `request_permissions(true, w)` with `w` the capability just queried (R88, R93; the spec's decision D21,
log 22). -/
def attachPermission (m : Medium) (s : State) : State :=
  let s := s.callMedium (.requestPermissions true m.writable m.nextOk)
  if m.nextOk then attachSize m.answered s else s.raiseAttachError .permissionDenied m.answered

/-- What ATTACH_MEDIUM does (R93): the capability query, which cannot fail (R87), then the steps above in order
(spec/60_exceptions.md R104). -/
def attachWithMedium (m : Medium) (s : State) : State :=
  attachPermission m { s.callMedium (.queryWriteCapability m.writable) with readOnly := !m.writable }

/-- ATTACH_MEDIUM (R93). -/
def execAttachMedium (m : Medium) (s : State) : Host.Outcome State Fault Refusal :=
  lifecycle s.phase.acceptsAttach s (attachWithMedium m)

/-- The platform's duties before it lets the router deliver the stimulus of kind `k` to a controller that has not been
attached (R123, R77; log 4): attach first (with no medium), and for a bus access reset as well. A controller that is
attached or has failed, and an attach, need nothing. -/
def State.bringUpFor (k : BitVec 2) (s : State) : State :=
  match s.phase with
  | .unattached =>
    if k = 0b00 then resetController (attachNoMedium s)
    else if k = 0b01 then attachNoMedium s
    else s
  | .volatileUnpopulated => s
  | .volatilePopulated => s
  | .withMedium => s
  | .failed => s

end Sys2Proof.Machine
end

