-- ==== Sys2Proof/Machine/Selector.lean ====
section
/-! DEFINITION. The SELECTOR operations (spec/40_register_access.md, section 1). -/

namespace Sys2Proof.Machine

/-- RD_SELECTOR (R67): the selector, verbatim, zero-extended. -/
def execRdSelector (size : Nat) (s : State) : Host.Outcome State Fault Refusal :=
  busAccess size s fun s => s.respond (zext64 s.selector)

/-- WR_SELECTOR (R68): the low 32 bits replace the selector; no bounds check (R42). -/
def execWrSelector (size : Nat) (value : BusValue) (s : State) : Host.Outcome State Fault Refusal :=
  busAccess size s fun s => s.setSelector (trunc32 value)

end Sys2Proof.Machine
end

