-- ==== Sys2Proof/Machine/Undecoded.lean ====
section
/-! DEFINITION. Accesses to undecoded offsets (spec/40_register_access.md, section 3; spec/30_encoding.md R59). -/

namespace Sys2Proof.Machine

/-- An access at an offset that selects no register (R35): an offset that selects one is no operand of these operations
(log 23). -/
def undecodedAccess (offset : Offset) (size : Nat) (s : State) (effect : State → State) :
    Host.Outcome State Fault Refusal :=
  if offsetDecoded offset then .refused (.offsetIsDecoded offset) else busAccess size s effect

/-- RD_INVALID (R71): one record, and 0. -/
def execRdInvalid (offset : Offset) (size : Nat) (s : State) : Host.Outcome State Fault Refusal :=
  undecodedAccess offset size s fun s => (s.diagnose (.invalidRead offset)).respond 0

/-- WR_INVALID (R72): one record; the value is dropped and not recorded. -/
def execWrInvalid (offset : Offset) (size : Nat) (_value : BusValue) (s : State) :
    Host.Outcome State Fault Refusal :=
  undecodedAccess offset size s fun s => s.diagnose (.invalidWrite offset)

end Sys2Proof.Machine
end

