-- ==== Sys2Proof/Machine/Dispatch.lean ====
section
/-! DEFINITION. One arm per operation of spec/opcode_table.json. -/

namespace Sys2Proof.Machine

/-- The meaning of an operation. -/
def exec (i : Instr) (s : State) : Host.Outcome State Fault Refusal :=
  match i with
  | .rdSelector size => Sys2Proof.Machine.execRdSelector size s
  | .wrSelector size value => Sys2Proof.Machine.execWrSelector size value s
  | .rdData size => Sys2Proof.Machine.execRdData size s
  | .wrData size value => Sys2Proof.Machine.execWrData size value s
  | .rdInvalid offset size => Sys2Proof.Machine.execRdInvalid offset size s
  | .wrInvalid offset size value => Sys2Proof.Machine.execWrInvalid offset size value s
  | .reset => Sys2Proof.Machine.execReset s
  | .attachNone => Sys2Proof.Machine.execAttachNone s
  | .attachMedium medium => Sys2Proof.Machine.execAttachMedium medium s

end Sys2Proof.Machine
end

