-- ==== Sys2Proof/Machine/Step.lean ====
section
/-! DEFINITION. One step: the controller's whole reaction to the next pending stimulus (spec/20_memory.md R45,
spec/30_encoding.md R53). -/

namespace Sys2Proof.Machine

/-- Take the next stimulus and react to it. With none pending the run has ended (spec/70_reset_and_hazards.md R135); a
reserved word is refused (spec/30_encoding.md R60). -/
def step (s : State) : Host.Outcome State Fault Refusal :=
  match s.pending with
  | [] => .refused .noStimulus
  | t :: rest =>
    match decode t with
    | .error .reservedKind => .refused .reservedKind
    | .ok i => exec i { s with pending := rest }

/-- The state whose very next step runs the operation of table word `w`: the stimulus is pending first, and the platform
has done what it must before the router may deliver it (log 4). A number that is no stimulus word leaves nothing
pending. -/
def State.withFetchWord (s : State) (_nbits w : Nat) : State :=
  match Stimulus.ofTableWord w with
  | none => { s with pending := [] }
  | some t => { s.bringUpFor (kindField t.word) with pending := t :: s.pending }

end Sys2Proof.Machine
end

