-- ==== Sys2Proof/Safety.lean ====
section
/-! DEFINITION. The terms in which claims are made: which stimulus a phase accepts, which phase follows, which record an
access must emit, and the invariants of a run. They are written from the spec's tables, not from the meanings. -/

namespace Sys2Proof

/-- Whether the medium's fallible call number `k` from now, counted from 0, returns `fail` (spec/41_lifecycle.md R86). -/
def Medium.failsCall (m : Medium) (k : Nat) : Bool := m.failing.contains (m.calls + k)

end Sys2Proof

namespace Sys2Proof.Machine

/-- The outcome is a next state. -/
def completes : Host.Outcome State Fault Refusal → Bool
  | .next _ => true
  | .fault _ => false
  | .refused _ => false

/-- The outcome is a refusal. -/
def isRefused : Host.Outcome State Fault Refusal → Bool
  | .next _ => false
  | .fault _ => false
  | .refused _ => true

/-- The rows of the transition table (spec/41_lifecycle.md R85): the stimulus is accepted in the first phase and may lead
to the second. -/
def transitionListed : Phase → Operation → Phase → Bool
  | .unattached, .attachNone, .volatileUnpopulated => true
  | .unattached, .attachMedium, .withMedium => true
  | .unattached, .attachMedium, .failed => true
  | .volatileUnpopulated, .reset, .volatilePopulated => true
  | .volatilePopulated, .reset, .volatilePopulated => true
  | .withMedium, .reset, .withMedium => true
  | .volatileUnpopulated, op, .volatileUnpopulated => op.isBus
  | .volatilePopulated, op, .volatilePopulated => op.isBus
  | .withMedium, op, .withMedium => op.isBus
  | _, _, _ => false

/-- Some row of the table lists the pair of phase and stimulus. -/
def pairListed (p : Phase) (op : Operation) : Bool :=
  [Phase.unattached, .volatileUnpopulated, .volatilePopulated, .withMedium, .failed].any fun q => transitionListed p op q

/-- The record an operation appends at a state, if any (spec/60_exceptions.md R107 to R110, R112). -/
def expectedRecord (s : State) : Instr → Option Diagnostic
  | .rdSelector _ => none
  | .wrSelector _ _ => none
  | .rdData _ => if s.selector.toNat < s.validCount.toNat then none else some (.outOfBoundsRead s.selector)
  | .wrData _ value =>
    if s.selector.toNat < s.validCount.toNat then none else some (.outOfBoundsWrite s.selector value)
  | .rdInvalid offset _ => some (.invalidRead offset)
  | .wrInvalid offset _ _ => some (.invalidWrite offset)
  | .reset => none
  | .attachNone => none
  | .attachMedium _ => none

/-- The categories of the records an operation appends at a state (spec/60_exceptions.md R106 to R109, R112). -/
def expectedCategories (s : State) : Instr → List DiagnosticCategory
  | .rdSelector _ => []
  | .wrSelector _ _ => []
  | .rdData _ => if s.selector.toNat < s.validCount.toNat then [] else [.outOfBounds]
  | .wrData _ _ => if s.selector.toNat < s.validCount.toNat then [] else [.outOfBounds]
  | .rdInvalid _ _ => [.invalidRegister]
  | .wrInvalid _ _ _ => [.invalidRegister]
  | .reset => []
  | .attachNone => []
  | .attachMedium _ => []

/-- One operation after another, stopping at the first that does not complete. -/
def execAll : List Instr → State → Host.Outcome State Fault Refusal
  | [], s => .next s
  | i :: rest, s =>
    match exec i s with
    | .next t => execAll rest t
    | .fault r => .fault r
    | .refused r => .refused r

/-- Whether the call is a `write_at` that returned `fail`. -/
def MediumCall.isFailedWrite : MediumCall → Bool
  | .writeAt _ _ ok => !ok
  | .queryWriteCapability _ => false
  | .requestPermissions _ _ _ => false
  | .length _ => false
  | .readAll _ _ => false

/-- What holds of the controller in every state of a run. -/
structure State.Inv (s : State) : Prop where
  /-- The array is held in its canonical form (log 17). -/
  fusesCanonical : Memory.wf s.fuses = true
  /-- Words at or past the count hold 0 (spec/10_state.md R30). -/
  fusesBelowCount : Memory.below s.validCount.toNat s.fuses = true
  /-- `valid_count <= CAPACITY` (R24). -/
  countBounded : s.validCount.toNat ≤ Config.capacity
  /-- A medium is attached exactly in phase `WithMedium` (R20). -/
  backingByPhase : s.backing.isSome = decide (s.phase = .withMedium)
  /-- The attached medium is a medium, its capability is what `read_only` was derived from, and its length is what the
  count was derived from (R17, R19, R86). -/
  mediumAgrees : ∀ m, s.backing = some m →
    m.wf = true ∧ s.readOnly = !m.writable ∧ s.validCount.toNat = countOfLength m.length
  /-- With no medium `read_only` is false (R19). -/
  readOnlyWithoutMedium : s.backing = none → s.phase ≠ .failed → s.readOnly = false
  /-- Nothing is populated before the first RESET of the volatile store (R17). -/
  unpopulated : s.phase = .unattached ∨ s.phase = .volatileUnpopulated → s.validCount = 0
  /-- Everything is after it (R17). -/
  populated : s.phase = .volatilePopulated → s.validCount.toNat = Config.capacity
  /-- An attach error is recorded exactly in phase `Failed` (spec/41_lifecycle.md R96). -/
  errorByPhase : s.attachError.isSome = decide (s.phase = .failed)
  /-- So is the medium it left (log 16). -/
  rejectedByPhase : s.rejected.isSome = decide (s.phase = .failed)
  /-- What the platform is still to hand over is a medium (R86). -/
  pendingMedia : ∀ t ∈ s.pending, t.medium.wf = true

/-- Medium coherence (spec/10_state.md R27): with a writable medium none of whose `write_at` calls failed, every valid
fuse word whose four bytes lie inside the medium is those bytes, in the order of `le32`. -/
def State.Coherent (s : State) : Prop :=
  ∀ m, s.backing = some m → s.readOnly = false → (∀ c ∈ s.mediumCalls, c.isFailedWrite = false) →
    ∀ i, i < s.validCount.toNat → 4 * i + 4 ≤ m.length →
      le32 (s.readFuse i) = [m.byte (4 * i), m.byte (4 * i + 1), m.byte (4 * i + 2), m.byte (4 * i + 3)]

/-- The two states have the same controller elements (R15 to R20) and the same attached medium: what differs, if
anything, is outputs and pending stimuli. -/
def State.sameElements (s t : State) : Prop :=
  t.phase = s.phase ∧ t.selector = s.selector ∧ t.fuses = s.fuses ∧ t.validCount = s.validCount ∧
    t.backing = s.backing ∧ t.readOnly = s.readOnly

/-- The two states look the same through the register window (R28): they may differ in the attached medium and in
`read_only`. -/
def State.sameThroughWindow (s t : State) : Prop :=
  t.phase.acceptsBus = s.phase.acceptsBus ∧ t.selector = s.selector ∧ t.fuses = s.fuses ∧
    t.validCount = s.validCount ∧ t.readResults = s.readResults ∧ t.diagnostics = s.diagnostics

end Sys2Proof.Machine
end

