-- ==== Sys2Proof/Certificates/Slice0/Obligations.lean ====
section
/-! DEFINITION. The statements about the controller, for the provers. "DX" in a docstring is a row of
spec/92_eei_decisions.md: a clause that rests on one is the spec's own decision and not a rule of its source. -/

open Sys2Proof Sys2Proof.Machine

/-! ### Stimuli -/

/-- Every well-formed operation, delivered as `encode` lays it out, decodes to itself (spec/30_encoding.md R55, R57; the
word is decision D3; log 3). -/
def Obligations.DecodeOfEncodeIsTheOperation : Prop :=
  ∀ i : Instr, i.wf = true → decode (encode i) = .ok i

/-- Words of spec/95_test_vectors.md 2.1, with operands, decode as listed there (the word is decision D3). -/
def Obligations.SpecWordsDecodeAsListed : Prop :=
  decode { word := 0x0000, size := 8 } = .ok (.rdSelector 8) ∧
  decode { word := 0x1000, size := 4, value := 0x7D0 } = .ok (.wrSelector 4 0x7D0) ∧
  decode { word := 0x0004, size := 5 } = .ok (.rdData 5) ∧
  decode { word := 0x1004, size := 8, value := 0x1234567880000000 } = .ok (.wrData 8 0x1234567880000000) ∧
  decode { word := 0x0FFC, size := 4 } = .ok (.rdInvalid 0xFFC 4) ∧
  decode { word := 0x1006, size := 4, value := 0xFFFF } = .ok (.wrInvalid 0x006 4 0xFFFF) ∧
  decode { word := 0x3ABC } = .ok .reset ∧
  decode { word := 0x4123 } = .ok .attachNone ∧
  decode { word := 0x5000, medium := { Medium.blank with writable := true } } =
    .ok (.attachMedium { Medium.blank with writable := true }) ∧
  decode { word := 0x6000 } = .error .reservedKind ∧
  decode { word := 0x7FFF } = .error .reservedKind

/-- The decoder rejects the words of kind `11` and no others (R57, R60; decision D3). -/
def Obligations.OnlyTheReservedKindIsRejected : Prop :=
  ∀ t : Stimulus,
    (0x6000 ≤ t.word.toNat → decode t = .error .reservedKind) ∧
    (t.word.toNat < 0x6000 → ∃ i, decode t = .ok i)

/-- A bus word is decoded by its whole offset: 0x000 is SELECTOR, 0x004 is DATA, and every other offset is undecoded,
also inside the bytes of a register (spec/20_memory.md R35, spec/30_encoding.md R58; the packing is decision D3). -/
def Obligations.BusWordsDecodeByTheWholeOffset : Prop :=
  ∀ (t : Stimulus) (o : Offset),
    (t.word.toNat = o.toNat →
      decode t = .ok (if o = 0x000 then .rdSelector t.size
        else if o = 0x004 then .rdData t.size else .rdInvalid o t.size)) ∧
    (t.word.toNat = 0x1000 + o.toNat →
      decode t = .ok (if o = 0x000 then .wrSelector t.size t.value
        else if o = 0x004 then .wrData t.size t.value else .wrInvalid o t.size t.value))

/-- A step takes the first pending stimulus off the list and runs the operation it decodes to; there is no program
counter to advance (R53, R57; the list is the model's, log 1). -/
def Obligations.StepRunsTheDecodedStimulus : Prop :=
  ∀ (s : State) (t : Stimulus) (rest : List Stimulus) (i : Instr),
    s.pending = t :: rest → decode t = .ok i → step s = exec i { s with pending := rest }

/-- With no stimulus pending (the model's choice, log 2), and on a reserved word (R60, decision D3), the step is refused
under its own name. -/
def Obligations.StepRefusesNothingPendingAndReservedWords : Prop :=
  ∀ s : State,
    (s.pending = [] → step s = .refused .noStimulus) ∧
    (∀ (t : Stimulus) (rest : List Stimulus), s.pending = t :: rest → 0x6000 ≤ t.word.toNat →
      step s = .refused .reservedKind)

/-- A step that completes has consumed exactly the first pending stimulus: no operation adds or removes one (R45; the
list is the model's, log 1; indivisible RESET and ATTACH are decision D23). -/
def Obligations.AStepConsumesOneStimulus : Prop :=
  ∀ s u : State, step s = .next u → ∃ t, s.pending = t :: u.pending

/-! ### SELECTOR -/

/-- RD_SELECTOR returns the selector zero-extended and changes nothing else (spec/40_register_access.md R67). -/
def Obligations.RdSelectorReturnsTheSelector : Prop :=
  ∀ (size : Nat) (s : State), 4 ≤ size → size ≤ 8 → s.phase.acceptsBus = true →
    exec (.rdSelector size) s = .next { s with readResults := s.readResults ++ [s.selector.setWidth 64] }

/-- WR_SELECTOR replaces the selector by the low 32 bits of the value, whatever they are, changes nothing else, and a
read gives them back (R68, spec/20_memory.md R42). -/
def Obligations.WrSelectorReplacesTheSelectorUnchecked : Prop :=
  ∀ (size size' : Nat) (value : BusValue) (s : State), 4 ≤ size → size ≤ 8 → 4 ≤ size' → size' ≤ 8 →
    s.phase.acceptsBus = true →
    exec (.wrSelector size value) s = .next { s with selector := value.setWidth 32 } ∧
    exec (.rdSelector size') { s with selector := value.setWidth 32 } =
      .next { s with
        selector := value.setWidth 32
        readResults := s.readResults ++ [(value.setWidth 32).setWidth 64] }

/-- The selector changes by WR_SELECTOR and by nothing else (spec/10_state.md R15, spec/40_register_access.md R79,
spec/70_reset_and_hazards.md R127; that RESET leaves it is decision D11, log 7). -/
def Obligations.OnlyWrSelectorChangesTheSelector : Prop :=
  ∀ (i : Instr) (s t : State), exec i s = .next t →
    (∀ size value, i = .wrSelector size value → t.selector = value.setWidth 32) ∧
    ((∀ size value, i ≠ .wrSelector size value) → t.selector = s.selector)

/-! ### DATA -/

/-- RD_DATA returns the selected fuse, or records the selector and returns 0; it changes nothing else (R69). -/
def Obligations.RdDataReadsTheSelectedFuse : Prop :=
  ∀ (size : Nat) (s : State), 4 ≤ size → size ≤ 8 → s.phase.acceptsBus = true →
    (s.selector.toNat < s.validCount.toNat →
      exec (.rdData size) s =
        .next { s with
          readResults := s.readResults ++ [(Memory.read s.fuses s.selector.toNat).setWidth 64] }) ∧
    (s.validCount.toNat ≤ s.selector.toNat →
      exec (.rdData size) s =
        .next { s with
          diagnostics := s.diagnostics ++ [.outOfBoundsRead s.selector]
          readResults := s.readResults ++ [0] })

/-- The frame of WR_DATA in bounds: the selected fuse is ORed with the low 32 bits of the value; every other fuse, every
medium byte outside the four at `4 * selector`, and every other element and output are as before, but for the list of
medium calls (R70; what the four bytes are is `WriteThroughStoresTheUpdatedWord`). -/
def Obligations.WrDataOrsTheSelectedFuse : Prop :=
  ∀ (size : Nat) (value : BusValue) (s : State), 4 ≤ size → size ≤ 8 → s.phase.acceptsBus = true →
    Memory.wf s.fuses = true → (∀ m, s.backing = some m → m.wf = true) →
    s.selector.toNat < s.validCount.toNat →
    ∃ t, exec (.wrData size value) s = .next t ∧
      Memory.read t.fuses s.selector.toNat = Memory.read s.fuses s.selector.toNat ||| value.setWidth 32 ∧
      (∀ j, j ≠ s.selector.toNat → Memory.read t.fuses j = Memory.read s.fuses j) ∧
      t.phase = s.phase ∧ t.selector = s.selector ∧ t.validCount = s.validCount ∧ t.readOnly = s.readOnly ∧
      t.attachError = s.attachError ∧ t.rejected = s.rejected ∧ t.readResults = s.readResults ∧
      t.diagnostics = s.diagnostics ∧ t.pending = s.pending ∧
      (s.backing = none → t.backing = none) ∧
      (∀ m, s.backing = some m → ∃ m', t.backing = some m' ∧ m'.length = m.length ∧ m'.writable = m.writable ∧
        ∀ a, (a < byteOffset s.selector.toNat ∨ byteOffset s.selector.toNat + 4 ≤ a) → m'.byte a = m.byte a)

/-- WR_DATA out of bounds appends one record of the selector and the attempted value, and changes nothing else (R70; the
value is recorded as delivered by decision D18, log 12). -/
def Obligations.WrDataOutOfBoundsOnlyRecords : Prop :=
  ∀ (size : Nat) (value : BusValue) (s : State), 4 ≤ size → size ≤ 8 → s.phase.acceptsBus = true →
    s.validCount.toNat ≤ s.selector.toNat →
    exec (.wrData size value) s =
      .next { s with diagnostics := s.diagnostics ++ [.outOfBoundsWrite s.selector value] }

/-- The write-through of an in-bounds WR_DATA. With no medium or a read-only one: no call, the medium unchanged. With a
writable one: one `write_at` of the whole updated word at `4 * selector`; where it returns `ok`, the bytes inside the
medium are the word's, lowest first (decision D5, log 8); where it fails, they are free (decision D16, log 10); every
other byte and the length are unchanged, bytes past the end dropped (decision D17, log 9); the array holds the ORed word
and nothing is recorded in either case (R73). -/
def Obligations.WriteThroughStoresTheUpdatedWord : Prop :=
  ∀ (size : Nat) (value : BusValue) (s : State), 4 ≤ size → size ≤ 8 → s.phase.acceptsBus = true →
    Memory.wf s.fuses = true → s.selector.toNat < s.validCount.toNat →
    ((s.backing = none ∨ s.readOnly = true) →
      ∃ t, exec (.wrData size value) s = .next t ∧ t.backing = s.backing ∧ t.mediumCalls = s.mediumCalls ∧
        Memory.read t.fuses s.selector.toNat = Memory.read s.fuses s.selector.toNat ||| value.setWidth 32) ∧
    (∀ m, s.backing = some m → s.readOnly = false → m.wf = true →
      ∃ t m', exec (.wrData size value) s = .next t ∧ t.backing = some m' ∧
        t.mediumCalls = s.mediumCalls ++
          [.writeAt (4 * s.selector.toNat)
            (le32 (Memory.read s.fuses s.selector.toNat ||| value.setWidth 32)) (!m.failsCall 0)] ∧
        m'.length = m.length ∧ m'.writable = m.writable ∧
        (∀ a, (a < 4 * s.selector.toNat ∨ 4 * s.selector.toNat + 4 ≤ a ∨ m.length ≤ a) → m'.byte a = m.byte a) ∧
        (m.failsCall 0 = false → ∀ j, j < 4 → 4 * s.selector.toNat + j < m.length →
          m'.byte (4 * s.selector.toNat + j) =
            (Memory.read s.fuses s.selector.toNat ||| value.setWidth 32).extractLsb' (8 * j) 8) ∧
        Memory.read t.fuses s.selector.toNat = Memory.read s.fuses s.selector.toNat ||| value.setWidth 32 ∧
        t.diagnostics = s.diagnostics)

/-- OR accumulation (R74): in-bounds writes to one fuse leave the OR of the old word and the low 32 bits of all of them,
whatever their order, and no other fuse changed; writing 0 changes no fuse. -/
def Obligations.WritesAccumulateByOr : Prop :=
  ∀ (size : Nat) (s : State), 4 ≤ size → size ≤ 8 → s.phase.acceptsBus = true → Memory.wf s.fuses = true →
    s.selector.toNat < s.validCount.toNat →
    (∀ values : List BusValue, ∃ t, execAll (values.map (Instr.wrData size)) s = .next t ∧
      Memory.read t.fuses s.selector.toNat =
        values.foldl (fun f v => f ||| v.setWidth 32) (Memory.read s.fuses s.selector.toNat) ∧
      (∀ j, j ≠ s.selector.toNat → Memory.read t.fuses j = Memory.read s.fuses j)) ∧
    (∀ (values values' : List BusValue) (t t' : State), values.Perm values' →
      execAll (values.map (Instr.wrData size)) s = .next t →
      execAll (values'.map (Instr.wrData size)) s = .next t' → t.fuses = t'.fuses) ∧
    (∃ t, exec (.wrData size 0) s = .next t ∧ t.fuses = s.fuses)

/-- Monotonicity (spec/10_state.md R26): no operation clears a fuse bit, but for RESET with no medium. -/
def Obligations.OnlyVolatileResetClearsAFuseBit : Prop :=
  ∀ (i : Instr) (s t : State) (j b : Nat), s.Inv → exec i s = .next t →
    (Memory.read s.fuses j).getLsbD b = true →
    (Memory.read t.fuses j).getLsbD b = true ∨ (i = .reset ∧ s.backing = none)

/-- The bounds predicate (spec/20_memory.md R44): unsigned, the selector not narrowed; in bounds implies a fuse that
exists; with a count of 0 nothing is in bounds; an out-of-bounds DATA access completes, changes no element, and a read of
it returns 0. -/
def Obligations.BoundsCheckGuardsTheArray : Prop :=
  ∀ (size : Nat) (value : BusValue) (s : State), 4 ≤ size → size ≤ 8 → s.phase.acceptsBus = true →
    (s.inBounds = true ↔ s.selector.toNat < s.validCount.toNat) ∧
    (s.Inv → s.inBounds = true → s.selector.toNat < 1024) ∧
    (s.validCount = 0 → s.inBounds = false) ∧
    (s.inBounds = false →
      (∃ t, exec (.rdData size) s = .next t ∧ s.sameElements t ∧ t.readResults = s.readResults ++ [0]) ∧
      (∃ t, exec (.wrData size value) s = .next t ∧ s.sameElements t ∧ t.mediumCalls = s.mediumCalls))

/-- The array changes only by an in-bounds WR_DATA, there only at the selected index, by the load of an attach, and by
RESET with no medium (spec/20_memory.md R52). -/
def Obligations.TheArrayHasThreeWriters : Prop :=
  ∀ (i : Instr) (s t : State) (j : Nat), Memory.wf s.fuses = true → exec i s = .next t →
    Memory.read t.fuses j ≠ Memory.read s.fuses j →
    (∃ size value, i = .wrData size value ∧ s.selector.toNat < s.validCount.toNat ∧ j = s.selector.toNat) ∨
    (∃ m, i = .attachMedium m ∧ t.phase = .withMedium ∧ j < t.validCount.toNat) ∨
    (i = .reset ∧ s.backing = none)

/-! ### Undecoded offsets -/

/-- RD_INVALID appends one record of the offset and returns 0; it changes nothing else (spec/40_register_access.md
R71). -/
def Obligations.RdInvalidRecordsAndReturnsZero : Prop :=
  ∀ (offset : Offset) (size : Nat) (s : State), offset ≠ 0x000 → offset ≠ 0x004 → 4 ≤ size → size ≤ 8 →
    s.phase.acceptsBus = true →
    exec (.rdInvalid offset size) s =
      .next { s with
        diagnostics := s.diagnostics ++ [.invalidRead offset]
        readResults := s.readResults ++ [0] }

/-- WR_INVALID appends one record of the offset and changes nothing else (R72; that the value is not recorded is decision
D18, log 12). -/
def Obligations.WrInvalidOnlyRecords : Prop :=
  ∀ (offset : Offset) (size : Nat) (value : BusValue) (s : State), offset ≠ 0x000 → offset ≠ 0x004 → 4 ≤ size →
    size ≤ 8 → s.phase.acceptsBus = true →
    exec (.wrInvalid offset size value) s =
      .next { s with diagnostics := s.diagnostics ++ [.invalidWrite offset] }

/-! ### All bus accesses -/

/-- A delivered bus access always completes (R76). -/
def Obligations.DeliveredBusAccessesComplete : Prop :=
  ∀ (i : Instr) (s : State), i.operation.isBus = true → i.wf = true → s.phase.acceptsBus = true →
    ∃ t, exec i s = .next t

/-- A size outside 4 to 8 is refused by name (spec/20_memory.md R36, decision D7), and so is an undecoded-offset
operation built with an offset that selects a register (the model's choice, log 23). -/
def Obligations.UndeliveredAccessesAreRefused : Prop :=
  ∀ (size : Nat) (value : BusValue) (offset : Offset) (s : State),
    ((size < 4 ∨ 8 < size) →
      exec (.rdSelector size) s = .refused (.sizeNotDelivered size) ∧
      exec (.wrSelector size value) s = .refused (.sizeNotDelivered size) ∧
      exec (.rdData size) s = .refused (.sizeNotDelivered size) ∧
      exec (.wrData size value) s = .refused (.sizeNotDelivered size) ∧
      (offset ≠ 0x000 → offset ≠ 0x004 →
        exec (.rdInvalid offset size) s = .refused (.sizeNotDelivered size) ∧
        exec (.wrInvalid offset size value) s = .refused (.sizeNotDelivered size))) ∧
    ((offset = 0x000 ∨ offset = 0x004) →
      exec (.rdInvalid offset size) s = .refused (.offsetIsDecoded offset) ∧
      exec (.wrInvalid offset size value) s = .refused (.offsetIsDecoded offset))

/-- Within 4 to 8 the size makes no difference to any bus access (R37, decision D9). -/
def Obligations.TheSizeMakesNoDifference : Prop :=
  ∀ (n n' : Nat) (value : BusValue) (offset : Offset) (s : State), 4 ≤ n → n ≤ 8 → 4 ≤ n' → n' ≤ 8 →
    exec (.rdSelector n) s = exec (.rdSelector n') s ∧
    exec (.wrSelector n value) s = exec (.wrSelector n' value) s ∧
    exec (.rdData n) s = exec (.rdData n') s ∧
    exec (.wrData n value) s = exec (.wrData n' value) s ∧
    exec (.rdInvalid offset n) s = exec (.rdInvalid offset n') s ∧
    exec (.wrInvalid offset n value) s = exec (.wrInvalid offset n' value) s

/-- A read changes no element of the state, no medium, and makes no medium call; it returns one value, emits at most one
record, and repeated returns the same value (R38). -/
def Obligations.ReadsChangeNoElementAndRepeat : Prop :=
  ∀ (i : Instr) (s t : State), i.operation.isRead = true → exec i s = .next t →
    s.sameElements t ∧ t.mediumCalls = s.mediumCalls ∧ t.attachError = s.attachError ∧ t.rejected = s.rejected ∧
    t.pending = s.pending ∧
    ∃ r ds, t.readResults = s.readResults ++ [r] ∧ t.diagnostics = s.diagnostics ++ ds ∧ ds.length ≤ 1 ∧
      ∃ u, exec i t = .next u ∧ u.readResults = t.readResults ++ [r]

/-- A bus write repeated with the same operands leaves the controller's elements as the first left them; only the
medium's bytes, its call and a record may come again (R38). -/
def Obligations.RepeatedBusWritesAreIdempotent : Prop :=
  ∀ (i : Instr) (s t : State), Memory.wf s.fuses = true → i.operation.isBus = true → i.operation.isRead = false →
    exec i s = .next t →
    ∃ u, exec i t = .next u ∧ u.phase = t.phase ∧ u.selector = t.selector ∧ u.fuses = t.fuses ∧
      u.validCount = t.validCount ∧ u.readOnly = t.readOnly ∧ u.backing.isSome = t.backing.isSome

/-- What reaches an initiator that asked for `size` bytes is the whole read result, for every delivered size (R34,
decision D6). -/
def Obligations.TheInitiatorSeesTheWholeResult : Prop :=
  ∀ (i : Instr) (s t : State) (size : Nat) (r : BusValue), 4 ≤ size → size ≤ 8 → exec i s = .next t →
    t.readResults = s.readResults ++ [r] → initiatorView size r = r

/-- An access that is seen by the next: WR_SELECTOR by the DATA access after it, an in-bounds WR_DATA by the RD_DATA
after it (R46, with the pseudo-operations of spec/30_encoding.md R64, whose names are decision D4). -/
def Obligations.ABlownFuseIsSensedAtOnce : Prop :=
  ∀ (k : Word) (value : BusValue) (s : State), s.phase.acceptsBus = true → Memory.wf s.fuses = true →
    k.toNat < s.validCount.toNat →
    ∃ t, execAll (blow k value ++ sense k) s = .next t ∧ t.selector = k ∧
      t.readResults =
        s.readResults ++ [(Memory.read s.fuses k.toNat ||| value.setWidth 32).setWidth 64]

/-! ### Diagnostics -/

/-- The diagnostic output is append-only; a faulty access appends exactly one record, of the one category its offset and
the bounds check give it, and no other stimulus appends any; the list influences nothing (spec/60_exceptions.md R107,
R112). -/
def Obligations.DiagnosticsAreAppendedAndNeverRead : Prop :=
  ∀ (i : Instr) (s t : State), exec i s = .next t →
    ∃ ds : List Diagnostic, t.diagnostics = s.diagnostics ++ ds ∧ ds.map Diagnostic.category = expectedCategories s i ∧
      ∀ old : List Diagnostic, exec i { s with diagnostics := old } = .next { t with diagnostics := old ++ ds }

/-- The record itself: the selector as 32 bits, the attempted value as the 64 bits delivered, the offset as 12 bits (R108,
R109; the payloads' form is decision D18, log 12). -/
def Obligations.RecordsCarryTheirPayload : Prop :=
  ∀ (i : Instr) (s t : State), exec i s = .next t →
    t.diagnostics = s.diagnostics ++ (expectedRecord s i).toList

/-- A faulty access completes, with 0 for a read; the state after it is the state before it plus one record (R106,
R113). -/
def Obligations.AFaultyAccessOnlyAddsARecord : Prop :=
  ∀ (i : Instr) (s : State), i.wf = true → s.phase.acceptsBus = true → expectedCategories s i ≠ [] →
    ∃ d, exec i s =
      .next { s with
        diagnostics := s.diagnostics ++ [d]
        readResults := if i.operation.isRead = true then s.readResults ++ [0] else s.readResults }

/-! ### Lifecycle -/

/-- The creation state (spec/10_state.md R29: phase and backing are its source's, the others decisions D10, D12, D13 and
D25; log 4, 5, 6). -/
def Obligations.TheCreationState : Prop :=
  State.reset.phase = .unattached ∧ State.reset.backing = none ∧ State.reset.selector = Config.selectorInit ∧
  (∀ i, Memory.read State.reset.fuses i = 0) ∧ State.reset.validCount = 0 ∧ State.reset.readOnly = false ∧
  State.reset.pending = [] ∧ State.reset.diagnostics = [] ∧ State.reset.readResults = [] ∧
  State.reset.mediumCalls = [] ∧ State.reset.attachError = none ∧ State.reset.rejected = none

/-- ATTACH_NONE leaves the store unpopulated and changes nothing else (spec/41_lifecycle.md R92; the numbers are decisions
D12, D13 and D25, log 6). -/
def Obligations.AttachNoneLeavesTheStoreUnpopulated : Prop :=
  ∀ s : State, s.phase = .unattached →
    exec .attachNone s =
      .next { s with backing := none, readOnly := false, validCount := 0, phase := .volatileUnpopulated }

/-- In the unpopulated store every DATA access is out of bounds: a read returns 0, a write is dropped, each with one
record (R77, R92; decision D13, log 6). -/
def Obligations.TheUnpopulatedStoreDropsDataAccesses : Prop :=
  ∀ (size : Nat) (value : BusValue) (s : State), s.Inv → 4 ≤ size → size ≤ 8 → s.phase = .volatileUnpopulated →
    exec (.rdData size) s =
      .next { s with
        diagnostics := s.diagnostics ++ [.outOfBoundsRead s.selector]
        readResults := s.readResults ++ [0] } ∧
    exec (.wrData size value) s =
      .next { s with diagnostics := s.diagnostics ++ [.outOfBoundsWrite s.selector value] }

/-- RESET with no medium zero-fills the array, makes all 1024 words valid, and changes nothing else (R97; that the
selector stays is decision D11, log 7). -/
def Obligations.ResetZeroFillsAVolatileStore : Prop :=
  ∀ s : State, s.phase.acceptsReset = true → s.backing = none →
    ∃ t, exec .reset s = .next t ∧ (∀ i, Memory.read t.fuses i = 0) ∧ t.validCount.toNat = 1024 ∧
      t.phase = .volatilePopulated ∧ t.selector = s.selector ∧ t.backing = s.backing ∧ t.readOnly = s.readOnly ∧
      t.attachError = s.attachError ∧ t.rejected = s.rejected ∧ t.readResults = s.readResults ∧
      t.diagnostics = s.diagnostics ∧ t.mediumCalls = s.mediumCalls ∧ t.pending = s.pending

/-- RESET with a medium attached changes nothing at all (R97). -/
def Obligations.ResetLeavesAMediumStoreAlone : Prop :=
  ∀ (s : State) (m : Medium), s.phase.acceptsReset = true → s.backing = some m → exec .reset s = .next s

/-- A successful ATTACH_MEDIUM makes its four calls in order, stores the rounded-up count, loads the words below it, each
little-endian with missing bytes 0, leaves the other words, and changes nothing else (R93 to R95; decisions D5, D14, D15
and D21, log 8, 9, 22, 25). -/
def Obligations.AttachMediumLoadsTheArray : Prop :=
  ∀ (m : Medium) (s : State), s.phase = .unattached → Memory.wf s.fuses = true → m.failsCall 0 = false →
    m.failsCall 1 = false → m.failsCall 2 = false → m.length ≤ 4096 →
    ∃ t m', exec (.attachMedium m) s = .next t ∧ t.phase = .withMedium ∧ t.validCount.toNat = (m.length + 3) / 4 ∧
      t.readOnly = !m.writable ∧
      (∀ i, i < (m.length + 3) / 4 →
        Memory.read t.fuses i =
          wordLe (if 4 * i < m.length then m.byte (4 * i) else 0)
            (if 4 * i + 1 < m.length then m.byte (4 * i + 1) else 0)
            (if 4 * i + 2 < m.length then m.byte (4 * i + 2) else 0)
            (if 4 * i + 3 < m.length then m.byte (4 * i + 3) else 0)) ∧
      (∀ i, (m.length + 3) / 4 ≤ i → Memory.read t.fuses i = Memory.read s.fuses i) ∧
      t.backing = some m' ∧ m'.length = m.length ∧ m'.writable = m.writable ∧ (∀ a, m'.byte a = m.byte a) ∧
      t.mediumCalls = s.mediumCalls ++
        [.queryWriteCapability m.writable, .requestPermissions true m.writable true, .length (some m.length),
          .readAll m.length true] ∧
      t.selector = s.selector ∧ t.attachError = s.attachError ∧ t.rejected = s.rejected ∧
      t.readResults = s.readResults ∧ t.diagnostics = s.diagnostics ∧ t.pending = s.pending

/-- The attach errors (spec/60_exceptions.md R103) in the order of their checks (R104): permission, size query, capacity,
load; the first that fails is reported and later calls are not made. No other operation raises one, nor does an attach
whose checks pass. A failed attach has written nothing to the medium (spec/41_lifecycle.md R96). That the medium goes back
in `rejected`, and that the array, the selector, `backing` and every output but the calls are as before, is the model's
choice (log 16; the fields are log 18): R96 leaves the other elements undefined in phase `Failed`. -/
def Obligations.AttachErrorsInOrder : Prop :=
  (∀ (m : Medium) (s : State), s.phase = .unattached →
    (∀ e kinds,
      (m.failsCall 0 = true ∧ e = AttachError.permissionDenied ∧
          kinds = [MediumCallKind.queryWriteCapability, .requestPermissions]) ∨
        (m.failsCall 0 = false ∧ m.failsCall 1 = true ∧ e = .sizeQueryFailed ∧
          kinds = [.queryWriteCapability, .requestPermissions, .length]) ∨
        (m.failsCall 0 = false ∧ m.failsCall 1 = false ∧ 4096 < m.length ∧ e = .mediumTooLarge ∧
          kinds = [.queryWriteCapability, .requestPermissions, .length]) ∨
        (m.failsCall 0 = false ∧ m.failsCall 1 = false ∧ m.length ≤ 4096 ∧ m.failsCall 2 = true ∧ e = .loadFailed ∧
          kinds = [.queryWriteCapability, .requestPermissions, .length, .readAll]) →
      ∃ t m', exec (.attachMedium m) s = .next t ∧ t.phase = .failed ∧ t.attachError = some e ∧
        t.mediumCalls.map MediumCall.kind = s.mediumCalls.map MediumCall.kind ++ kinds ∧
        t.rejected = some m' ∧ m'.length = m.length ∧ (∀ a, m'.byte a = m.byte a) ∧
        t.fuses = s.fuses ∧ t.selector = s.selector ∧ t.backing = s.backing ∧ t.readResults = s.readResults ∧
        t.diagnostics = s.diagnostics ∧ t.pending = s.pending) ∧
    (m.failsCall 0 = false → m.failsCall 1 = false → m.length ≤ 4096 → m.failsCall 2 = false →
      ∃ t, exec (.attachMedium m) s = .next t ∧ t.attachError = s.attachError)) ∧
  (∀ (i : Instr) (s t : State), exec i s = .next t → t.attachError ≠ s.attachError → ∃ m, i = .attachMedium m)

/-- The phase follows the transition table (spec/41_lifecycle.md R85; decisions D13, D19). -/
def Obligations.ThePhaseFollowsTheTable : Prop :=
  ∀ (i : Instr) (s t : State), s.Inv → exec i s = .next t →
    transitionListed s.phase i.operation t.phase = true

/-- A well-formed stimulus completes exactly in the phases the table lists for it, and in every other phase is refused by
name (R77, R85; the refusals are decisions D19 and D20, log 15). -/
def Obligations.StimuliAreAcceptedAsTheTableLists : Prop :=
  ∀ (i : Instr) (s : State), i.wf = true →
    (pairListed s.phase i.operation = true → ∃ t, exec i s = .next t) ∧
    (pairListed s.phase i.operation = false → exec i s = .refused (.notAcceptedInPhase s.phase))

/-- A controller whose attach failed takes no further step (R96, R105; decision D19, log 15). -/
def Obligations.AFailedControllerTakesNoStep : Prop :=
  ∀ s : State, s.phase = .failed → isRefused (step s) = true

/-! ### The medium -/

/-- Bus accesses make no medium call but one `write_at` for an in-bounds WR_DATA with a writable medium (spec/20_memory.md
R51). -/
def Obligations.BusAccessesCallTheMediumAtMostOnce : Prop :=
  ∀ (i : Instr) (s t : State), i.operation.isBus = true → exec i s = .next t →
    (i.operation = .wrData ∧ s.selector.toNat < s.validCount.toNat ∧ s.backing.isSome = true ∧ s.readOnly = false →
      ∃ c, t.mediumCalls = s.mediumCalls ++ [c] ∧ c.kind = .writeAt) ∧
    (¬ (i.operation = .wrData ∧ s.selector.toNat < s.validCount.toNat ∧ s.backing.isSome = true ∧
        s.readOnly = false) →
      t.mediumCalls = s.mediumCalls)

/-- An attached medium stays attached, with its length, its capability, `read_only` and the count, and only its bytes at
`4 * selector` to `4 * selector + 3` change, only by an in-bounds WR_DATA, only where it is writable (spec/10_state.md
R18, spec/41_lifecycle.md R91, R101; no other writer is decision D22, log 19). -/
def Obligations.AnAttachedMediumChangesOnlyByWriteThrough : Prop :=
  ∀ (i : Instr) (s t : State) (m : Medium), s.Inv → s.backing = some m → exec i s = .next t →
    t.readOnly = s.readOnly ∧ t.validCount = s.validCount ∧
    ∃ m', t.backing = some m' ∧ m'.length = m.length ∧ m'.writable = m.writable ∧
      ∀ a, m'.byte a ≠ m.byte a →
        (∃ size value, i = .wrData size value) ∧ s.selector.toNat < s.validCount.toNat ∧ m.writable = true ∧
          4 * s.selector.toNat ≤ a ∧ a < 4 * s.selector.toNat + 4 ∧ a < m.length

/-- `le32` and `word_le` are inverses (spec/00_scope.md R8; the order is decision D5, log 8). -/
def Obligations.WordAndBytesAreInverse : Prop :=
  (∀ b0 b1 b2 b3 : Byte, le32 (wordLe b0 b1 b2 b3) = [b0, b1, b2, b3]) ∧
  (∀ w : Word, wordLe (w.extractLsb' 0 8) (w.extractLsb' 8 8) (w.extractLsb' 16 8) (w.extractLsb' 24 8) = w)

/-! ### Invariants and headlines -/

/-- `valid_count <= CAPACITY` at creation and after every step from a state that has it, whatever medium is offered
(spec/10_state.md R24). -/
def Obligations.TheCountNeverExceedsTheCapacity : Prop :=
  State.reset.validCount.toNat ≤ Config.capacity ∧
  ∀ s s' : State, s.validCount.toNat ≤ Config.capacity → step s = .next s' → s'.validCount.toNat ≤ Config.capacity

/-- The creation state meets the invariant. -/
def Obligations.TheCreationStateMeetsTheInvariant : Prop := State.reset.Inv

/-- Every step keeps the invariant: canonical stores, the array below the count, the count within the capacity, backing,
read_only and error records as the phase says (spec/10_state.md R17 to R20, R24, R30; decisions D12, D13, D25; in phase
`Failed` what the elements hold is the model's choice, log 16). -/
def Obligations.EveryStepKeepsTheInvariant : Prop :=
  ∀ s s' : State, s.Inv → step s = .next s' → s'.Inv

/-- Every step keeps array and medium coherent, as long as no `write_at` has failed and the medium is writable
(spec/10_state.md R27; the byte order is decision D5, log 8). -/
def Obligations.EveryStepKeepsTheMediumCoherent : Prop :=
  ∀ s s' : State, s.Inv → s.Coherent → step s = .next s' → s'.Coherent

/-- Round trip across sessions (spec/41_lifecycle.md R100): after an in-bounds write whose `write_at` returns `ok`, a new
controller attached to the medium as it was left (with no failing call) has the same count and the same fuses, the written
one with its ORed value. It rests on the byte order (decision D5, log 8), on words at or past the count being 0 in both
controllers (decision D12, log 6), and on `State.reset` standing for the second controller, with nothing done to the
medium between the sessions (decision D22, log 19). -/
def Obligations.AReattachedMediumReproducesTheFuses : Prop :=
  ∀ (size : Nat) (value : BusValue) (s t u : State) (m m' : Medium),
    s.Inv → s.Coherent → s.phase = .withMedium → s.backing = some m → m.writable = true →
    (∀ c ∈ s.mediumCalls, c.isFailedWrite = false) → s.selector.toNat < s.validCount.toNat →
    m.length % 4 = 0 → m.failsCall 0 = false → m.failsCall 1 = false → m.failsCall 2 = false →
    m.failsCall 3 = false →
    exec (.wrData size value) s = .next t → t.backing = some m' →
    exec (.attachMedium m') State.reset = .next u →
    u.phase = .withMedium ∧ u.validCount = s.validCount ∧
      Memory.read u.fuses s.selector.toNat = Memory.read s.fuses s.selector.toNat ||| value.setWidth 32 ∧
      ∀ i, i ≠ s.selector.toNat → Memory.read u.fuses i = Memory.read s.fuses i

/-- What the window cannot show (spec/10_state.md R23, R28): two controllers that differ only in the attached medium,
`read_only` and the phase among those that accept bus accesses answer every sequence of bus accesses alike, with the same
read results and records. -/
def Obligations.TheWindowHidesTheMedium : Prop :=
  ∀ (is : List Instr) (s t s' : State), (∀ i ∈ is, i.operation.isBus = true) → s.sameThroughWindow t →
    execAll is s = .next s' → ∃ t', execAll is t = .next t' ∧ s'.sameThroughWindow t'
end

