-- ==== Sys2Proof/Laws/Memory.lean ====
section
/-! SUPPORT. The laws of the stores: read after write, and that every operation keeps the canonical form and the
bounds. -/

namespace Sys2Proof

variable {w : Nat}

@[simp] theorem Memory.read_nil (a : Nat) : Memory.read ([] : Memory w) a = 0 := rfl

theorem Memory.read_cons (k : Nat) (v : BitVec w) (rest : Memory w) (a : Nat) :
    Memory.read ((k, v) :: rest) a = if k = a then v else Memory.read rest a := rfl

theorem Memory.wfFrom_cons (lo k : Nat) (v : BitVec w) (rest : Memory w) :
    Memory.wfFrom lo ((k, v) :: rest) = true ↔ lo ≤ k ∧ v ≠ 0 ∧ Memory.wfFrom (k + 1) rest = true := by
  simp [Memory.wfFrom, and_assoc]

theorem Memory.wfFrom_mono {lo lo' : Nat} (h : lo' ≤ lo) :
    ∀ {m : Memory w}, Memory.wfFrom lo m = true → Memory.wfFrom lo' m = true
  | [], _ => rfl
  | (k, v) :: rest, hm => by
    rw [Memory.wfFrom_cons] at hm ⊢
    exact ⟨h.trans hm.1, hm.2⟩

/-- Below the first address a canonical store is unlisted. -/
theorem Memory.read_below_wfFrom {lo a : Nat} (h : a < lo) :
    ∀ {m : Memory w}, Memory.wfFrom lo m = true → Memory.read m a = 0
  | [], _ => rfl
  | (k, v) :: rest, hm => by
    rw [Memory.wfFrom_cons] at hm
    have hk : ¬ k = a := by omega
    rw [Memory.read_cons, if_neg hk]
    exact Memory.read_below_wfFrom (by omega) hm.2.2

theorem Memory.wfFrom_write {lo a : Nat} (v : BitVec w) (h : lo ≤ a) :
    ∀ {m : Memory w}, Memory.wfFrom lo m = true → Memory.wfFrom lo (Memory.write m a v) = true
  | [], _ => by
    unfold Memory.write
    split
    · rfl
    · next hv => exact (Memory.wfFrom_cons lo a v []).2 ⟨h, hv, rfl⟩
  | (k, u) :: rest, hm => by
    have hm' := hm
    rw [Memory.wfFrom_cons] at hm'
    obtain ⟨hk, hu, hr⟩ := hm'
    unfold Memory.write
    split
    · next hak =>
      split
      · exact hm
      · next hv =>
        exact (Memory.wfFrom_cons ..).2 ⟨h, hv, (Memory.wfFrom_cons ..).2 ⟨hak, hu, hr⟩⟩
    · next hak =>
      split
      · next hak' =>
        split
        · exact Memory.wfFrom_mono (by omega) hr
        · next hv => exact (Memory.wfFrom_cons ..).2 ⟨h, hv, hak' ▸ hr⟩
      · exact (Memory.wfFrom_cons ..).2 ⟨hk, hu, Memory.wfFrom_write v (by omega) hr⟩

/-- A write keeps the canonical form. -/
theorem Memory.wf_write (m : Memory w) (a : Nat) (v : BitVec w) (h : Memory.wf m = true) :
    Memory.wf (Memory.write m a v) = true :=
  Memory.wfFrom_write v (Nat.zero_le a) h

theorem Memory.read_write_from {lo : Nat} (a b : Nat) (v : BitVec w) :
    ∀ {m : Memory w}, Memory.wfFrom lo m = true →
      Memory.read (Memory.write m a v) b = if b = a then v else Memory.read m b
  | [], _ => by
    unfold Memory.write
    split
    · next hv => simp [hv, Memory.unlisted]
    · simp [Memory.read_cons, eq_comm]
  | (k, u) :: rest, hm => by
    rw [Memory.wfFrom_cons] at hm
    obtain ⟨_, hu, hr⟩ := hm
    have hlow : ∀ c, c ≤ k → Memory.read rest c = 0 := fun c hc => Memory.read_below_wfFrom (by omega) hr
    unfold Memory.write
    split
    · next hak =>
      split
      · next hv =>
        by_cases hb : b = a
        · subst hb
          rw [Memory.read_cons, if_neg (by omega), hlow _ (by omega), if_pos rfl, hv]
          rfl
        · rw [if_neg hb]
      · simp only [Memory.read_cons, eq_comm (a := a)]
    · next hak =>
      split
      · next hak' =>
        subst hak'
        split
        · next hv =>
          by_cases hb : b = a
          · subst hb
            rw [hlow _ (by omega), if_pos rfl, hv]
            rfl
          · rw [if_neg hb, Memory.read_cons, if_neg (fun h => hb h.symm)]
        · by_cases hb : b = a
          · simp [Memory.read_cons, hb]
          · have : ¬ a = b := fun h => hb h.symm
            simp [Memory.read_cons, hb, this]
      · next hne =>
        rw [Memory.read_cons, Memory.read_cons, Memory.read_write_from a b v hr]
        by_cases hkb : k = b
        · subst hkb
          rw [if_pos rfl, if_pos rfl, if_neg (fun h => hne h.symm)]
        · rw [if_neg hkb, if_neg hkb]

/-- Read after write: the value written at its own address, the old value everywhere else. -/
theorem Memory.read_write (m : Memory w) (a b : Nat) (v : BitVec w) (h : Memory.wf m = true) :
    Memory.read (Memory.write m a v) b = if b = a then v else Memory.read m b :=
  Memory.read_write_from a b v h

theorem Memory.read_write_same (m : Memory w) (a : Nat) (v : BitVec w) (h : Memory.wf m = true) :
    Memory.read (Memory.write m a v) a = v := by
  rw [Memory.read_write m a a v h, if_pos rfl]

theorem Memory.read_write_other (m : Memory w) {a b : Nat} (v : BitVec w) (hab : b ≠ a) (h : Memory.wf m = true) :
    Memory.read (Memory.write m a v) b = Memory.read m b := by
  rw [Memory.read_write m a b v h, if_neg hab]

theorem Memory.below_nil (n : Nat) : Memory.below n ([] : Memory w) = true := rfl

theorem Memory.below_cons (n k : Nat) (v : BitVec w) (rest : Memory w) :
    Memory.below n ((k, v) :: rest) = true ↔ k < n ∧ Memory.below n rest = true := by
  simp [Memory.below]

theorem Memory.below_mono {n n' : Nat} (h : n ≤ n') :
    ∀ {m : Memory w}, Memory.below n m = true → Memory.below n' m = true
  | [], _ => rfl
  | (k, v) :: rest, hm => by
    rw [Memory.below_cons] at hm ⊢
    exact ⟨by omega, Memory.below_mono h hm.2⟩

/-- A write below the bound keeps the bound. -/
theorem Memory.below_write {n a : Nat} (v : BitVec w) (h : a < n) :
    ∀ {m : Memory w}, Memory.below n m = true → Memory.below n (Memory.write m a v) = true
  | [], _ => by
    unfold Memory.write
    split
    · rfl
    · exact (Memory.below_cons ..).2 ⟨h, rfl⟩
  | (k, u) :: rest, hm => by
    have hm' := (Memory.below_cons ..).1 hm
    unfold Memory.write
    split
    · split
      · exact hm
      · exact (Memory.below_cons ..).2 ⟨h, hm⟩
    · split
      · split
        · exact hm'.2
        · exact (Memory.below_cons ..).2 ⟨h, hm'.2⟩
      · exact (Memory.below_cons ..).2 ⟨hm'.1, Memory.below_write v h hm'.2⟩

/-- At or past the bound every address is unlisted. -/
theorem Memory.read_of_below {n a : Nat} (h : n ≤ a) :
    ∀ {m : Memory w}, Memory.below n m = true → Memory.read m a = 0
  | [], _ => rfl
  | (k, v) :: rest, hm => by
    rw [Memory.below_cons] at hm
    rw [Memory.read_cons, if_neg (by omega)]
    exact Memory.read_of_below h hm.2

/-- A store with nothing below 0 is empty. -/
theorem Memory.eq_nil_of_below_zero : ∀ {m : Memory w}, Memory.below 0 m = true → m = []
  | [], _ => rfl
  | (k, v) :: rest, hm => by
    rw [Memory.below_cons] at hm
    omega

theorem Memory.eq_of_read_eq_from {lo : Nat} : ∀ {m m' : Memory w}, Memory.wfFrom lo m = true →
    Memory.wfFrom lo m' = true → (∀ a, Memory.read m a = Memory.read m' a) → m = m'
  | [], [], _, _, _ => rfl
  | [], (k, v) :: rest, _, h', hr => by
    rw [Memory.wfFrom_cons] at h'
    have := hr k
    rw [Memory.read_nil, Memory.read_cons, if_pos rfl] at this
    exact absurd this.symm h'.2.1
  | (k, v) :: rest, [], h, _, hr => by
    rw [Memory.wfFrom_cons] at h
    have := hr k
    rw [Memory.read_nil, Memory.read_cons, if_pos rfl] at this
    exact absurd this h.2.1
  | (k, v) :: rest, (k', v') :: rest', h, h', hr => by
    rw [Memory.wfFrom_cons] at h h'
    have hk : k = k' := by
      rcases Nat.lt_trichotomy k k' with hlt | heq | hlt
      · have := hr k
        rw [Memory.read_cons, if_pos rfl, Memory.read_cons, if_neg (by omega),
          Memory.read_below_wfFrom (by omega) h'.2.2] at this
        exact absurd this h.2.1
      · exact heq
      · have := hr k'
        rw [Memory.read_cons, if_neg (by omega), Memory.read_below_wfFrom (by omega) h.2.2,
          Memory.read_cons, if_pos rfl] at this
        exact absurd this.symm h'.2.1
    subst hk
    have hv : v = v' := by
      have := hr k
      rwa [Memory.read_cons, if_pos rfl, Memory.read_cons, if_pos rfl] at this
    subst hv
    have hrest : rest = rest' := by
      refine Memory.eq_of_read_eq_from h.2.2 h'.2.2 fun a => ?_
      by_cases ha : k = a
      · subst ha
        rw [Memory.read_below_wfFrom (by omega) h.2.2, Memory.read_below_wfFrom (by omega) h'.2.2]
      · have := hr a
        rwa [Memory.read_cons, if_neg ha, Memory.read_cons, if_neg ha] at this
    rw [hrest]

/-- Equal contents are equal data: two canonical stores that read alike are the same list. -/
theorem Memory.eq_of_read_eq {m m' : Memory w} (h : Memory.wf m = true) (h' : Memory.wf m' = true)
    (hr : ∀ a, Memory.read m a = Memory.read m' a) : m = m' :=
  Memory.eq_of_read_eq_from h h' hr

/-- Storing a list of bytes keeps the canonical form. -/
theorem Memory.wf_storeBytes (len : Nat) : ∀ (bs : List Byte) (offset : Nat) (m : Memory 8), Memory.wf m = true →
    Memory.wf (Memory.storeBytes len offset bs m) = true
  | [], _, _, h => h
  | b :: bs, offset, m, h => by
    refine Memory.wf_storeBytes len bs (offset + 1) _ ?_
    split
    · exact Memory.wf_write m offset b h
    · exact h

/-- It stores nothing at or past the length. -/
theorem Memory.below_storeBytes (len : Nat) : ∀ (bs : List Byte) (offset : Nat) (m : Memory 8),
    Memory.below len m = true → Memory.below len (Memory.storeBytes len offset bs m) = true
  | [], _, _, h => h
  | b :: bs, offset, m, h => by
    refine Memory.below_storeBytes len bs (offset + 1) _ ?_
    split
    · next hlt => exact Memory.below_write b hlt h
    · exact h

/-- What the store reads after a list of bytes is stored from `offset` up: those of them that lie below the length, and
the old bytes everywhere else. -/
theorem Memory.read_storeBytes (len : Nat) : ∀ (bs : List Byte) (offset : Nat) (m : Memory 8) (a : Nat),
    Memory.wf m = true →
      Memory.read (Memory.storeBytes len offset bs m) a =
        if offset ≤ a ∧ a < offset + bs.length ∧ a < len then bs.getD (a - offset) 0 else Memory.read m a
  | [], offset, m, a, _ => by
    simp [Memory.storeBytes]
    omega
  | b :: bs, offset, m, a, h => by
    have hw : Memory.wf (if offset < len then Memory.write m offset b else m) = true := by
      split
      · exact Memory.wf_write m offset b h
      · exact h
    rw [Memory.storeBytes, Memory.read_storeBytes len bs (offset + 1) _ a hw]
    by_cases ha : a = offset
    · subst ha
      rw [if_neg (by omega)]
      by_cases hl : a < len
      · rw [if_pos hl, Memory.read_write_same m a b h, if_pos (by simp [hl])]
        simp
      · rw [if_neg hl, if_neg (by omega)]
    · have hold : Memory.read (if offset < len then Memory.write m offset b else m) a = Memory.read m a := by
        split
        · exact Memory.read_write_other m b ha h
        · rfl
      rw [hold]
      by_cases hin : offset + 1 ≤ a ∧ a < offset + 1 + bs.length ∧ a < len
      · have : a - offset = (a - (offset + 1)) + 1 := by omega
        rw [if_pos hin, if_pos (by simp; omega), this]
        simp
      · rw [if_neg hin, if_neg (by simp; omega)]

end Sys2Proof
end

