-- ==== Sys2Proof/Laws/Medium.lean ====
section
/-! SUPPORT. What the medium's port does to the medium. -/

namespace Sys2Proof

@[simp] theorem Medium.answered_length (m : Medium) : m.answered.length = m.length := rfl
@[simp] theorem Medium.answered_cells (m : Medium) : m.answered.cells = m.cells := rfl
@[simp] theorem Medium.answered_writable (m : Medium) : m.answered.writable = m.writable := rfl
@[simp] theorem Medium.answered_failing (m : Medium) : m.answered.failing = m.failing := rfl
@[simp] theorem Medium.answered_calls (m : Medium) : m.answered.calls = m.calls + 1 := rfl
@[simp] theorem Medium.writeAt_length (m : Medium) (o : Nat) (bs : List Byte) : (m.writeAt o bs).length = m.length := rfl
@[simp] theorem Medium.writeAt_writable (m : Medium) (o : Nat) (bs : List Byte) :
    (m.writeAt o bs).writable = m.writable := rfl
@[simp] theorem Medium.writeAt_failing (m : Medium) (o : Nat) (bs : List Byte) :
    (m.writeAt o bs).failing = m.failing := rfl
@[simp] theorem Medium.writeAt_calls (m : Medium) (o : Nat) (bs : List Byte) :
    (m.writeAt o bs).calls = m.calls + 1 := rfl
@[simp] theorem Medium.byte_answered (m : Medium) (a : Nat) : m.answered.byte a = m.byte a := rfl
@[simp] theorem Medium.pad_answered (m : Medium) (a : Nat) : m.answered.pad a = m.pad a := rfl
@[simp] theorem Medium.word_answered (m : Medium) (i : Nat) : m.answered.word i = m.word i := rfl

theorem Medium.pad_of_lt (m : Medium) {j : Nat} (h : j < m.length) : m.pad j = m.byte j := if_pos h

theorem Medium.pad_of_le (m : Medium) {j : Nat} (h : m.length ≤ j) : m.pad j = 0 := if_neg (by omega)

theorem Medium.word_eq (m : Medium) (i : Nat) :
    m.word i = Machine.wordLe (m.pad (4 * i)) (m.pad (4 * i + 1)) (m.pad (4 * i + 2)) (m.pad (4 * i + 3)) := rfl

/-- A word that lies inside the medium is made of its four bytes. -/
theorem Medium.word_of_within (m : Medium) {i : Nat} (h : 4 * i + 4 ≤ m.length) :
    m.word i = Machine.wordLe (m.byte (4 * i)) (m.byte (4 * i + 1)) (m.byte (4 * i + 2)) (m.byte (4 * i + 3)) := by
  rw [Medium.word_eq, m.pad_of_lt (by omega), m.pad_of_lt (by omega), m.pad_of_lt (by omega), m.pad_of_lt (by omega)]

theorem Medium.nextOk_eq (m : Medium) : m.nextOk = !m.failsCall 0 := rfl

theorem Medium.failsCall_answered (m : Medium) (k : Nat) : m.answered.failsCall k = m.failsCall (k + 1) := by
  simp [Medium.failsCall, Nat.add_comm, Nat.add_left_comm]

theorem Medium.wf_iff (m : Medium) : m.wf = true ↔
    Memory.wf m.cells = true ∧ Memory.below m.length m.cells = true ∧ m.length < Config.mediumLengthBound := by
  simp [Medium.wf, and_assoc]

theorem Medium.wf_answered (m : Medium) : m.answered.wf = m.wf := rfl

/-- A write keeps the medium a medium of the same length. -/
theorem Medium.wf_writeAt (m : Medium) (o : Nat) (bs : List Byte) (h : m.wf = true) : (m.writeAt o bs).wf = true := by
  rw [Medium.wf_iff] at h ⊢
  exact ⟨Memory.wf_storeBytes _ _ _ _ h.1, Memory.below_storeBytes _ _ _ _ h.2.1, h.2.2⟩

theorem Medium.writtenBytes_length (m : Medium) (o : Nat) (bs : List Byte) (h : bs.length = 4) :
    (m.writtenBytes o bs).length = 4 := by
  unfold Medium.writtenBytes
  split
  · exact h
  · rfl

/-- The medium's byte after a `write_at` of four bytes: a written one below the length inside the four, the old one
everywhere else. -/
theorem Medium.byte_writeAt (m : Medium) (o : Nat) (bs : List Byte) (a : Nat) (h : Memory.wf m.cells = true)
    (hb : bs.length = 4) :
    (m.writeAt o bs).byte a =
      if o ≤ a ∧ a < o + 4 ∧ a < m.length then (m.writtenBytes o bs).getD (a - o) 0 else m.byte a := by
  have := Memory.read_storeBytes m.length (m.writtenBytes o bs) o m.cells a h
  rw [Medium.writtenBytes_length m o bs hb] at this
  exact this

theorem Medium.byte_writeAt_outside (m : Medium) (o : Nat) (bs : List Byte) (a : Nat) (h : Memory.wf m.cells = true)
    (hb : bs.length = 4) (ha : a < o ∨ o + 4 ≤ a ∨ m.length ≤ a) : (m.writeAt o bs).byte a = m.byte a := by
  rw [Medium.byte_writeAt m o bs a h hb, if_neg (by omega)]

end Sys2Proof
end

