-- ==== Sys2Proof/Laws/State.lean ====
section
/-! SUPPORT. What each update of the state leaves in each field: one lemma per field per update, so that no later proof
unfolds a record update. -/

namespace Sys2Proof.Machine

@[simp] theorem State.writeFuse_phase (s : State) (i : Nat) (v : Word) : (s.writeFuse i v).phase = s.phase := rfl
@[simp] theorem State.writeFuse_selector (s : State) (i : Nat) (v : Word) : (s.writeFuse i v).selector = s.selector := rfl
@[simp] theorem State.writeFuse_fuses (s : State) (i : Nat) (v : Word) : (s.writeFuse i v).fuses = Memory.write s.fuses i v := rfl
@[simp] theorem State.writeFuse_validCount (s : State) (i : Nat) (v : Word) : (s.writeFuse i v).validCount = s.validCount := rfl
@[simp] theorem State.writeFuse_backing (s : State) (i : Nat) (v : Word) : (s.writeFuse i v).backing = s.backing := rfl
@[simp] theorem State.writeFuse_readOnly (s : State) (i : Nat) (v : Word) : (s.writeFuse i v).readOnly = s.readOnly := rfl
@[simp] theorem State.writeFuse_attachError (s : State) (i : Nat) (v : Word) : (s.writeFuse i v).attachError = s.attachError := rfl
@[simp] theorem State.writeFuse_rejected (s : State) (i : Nat) (v : Word) : (s.writeFuse i v).rejected = s.rejected := rfl
@[simp] theorem State.writeFuse_readResults (s : State) (i : Nat) (v : Word) : (s.writeFuse i v).readResults = s.readResults := rfl
@[simp] theorem State.writeFuse_diagnostics (s : State) (i : Nat) (v : Word) : (s.writeFuse i v).diagnostics = s.diagnostics := rfl
@[simp] theorem State.writeFuse_mediumCalls (s : State) (i : Nat) (v : Word) : (s.writeFuse i v).mediumCalls = s.mediumCalls := rfl
@[simp] theorem State.writeFuse_pending (s : State) (i : Nat) (v : Word) : (s.writeFuse i v).pending = s.pending := rfl

@[simp] theorem State.setSelector_phase (s : State) (v : Word) : (s.setSelector v).phase = s.phase := rfl
@[simp] theorem State.setSelector_selector (s : State) (v : Word) : (s.setSelector v).selector = v := rfl
@[simp] theorem State.setSelector_fuses (s : State) (v : Word) : (s.setSelector v).fuses = s.fuses := rfl
@[simp] theorem State.setSelector_validCount (s : State) (v : Word) : (s.setSelector v).validCount = s.validCount := rfl
@[simp] theorem State.setSelector_backing (s : State) (v : Word) : (s.setSelector v).backing = s.backing := rfl
@[simp] theorem State.setSelector_readOnly (s : State) (v : Word) : (s.setSelector v).readOnly = s.readOnly := rfl
@[simp] theorem State.setSelector_attachError (s : State) (v : Word) : (s.setSelector v).attachError = s.attachError := rfl
@[simp] theorem State.setSelector_rejected (s : State) (v : Word) : (s.setSelector v).rejected = s.rejected := rfl
@[simp] theorem State.setSelector_readResults (s : State) (v : Word) : (s.setSelector v).readResults = s.readResults := rfl
@[simp] theorem State.setSelector_diagnostics (s : State) (v : Word) : (s.setSelector v).diagnostics = s.diagnostics := rfl
@[simp] theorem State.setSelector_mediumCalls (s : State) (v : Word) : (s.setSelector v).mediumCalls = s.mediumCalls := rfl
@[simp] theorem State.setSelector_pending (s : State) (v : Word) : (s.setSelector v).pending = s.pending := rfl

@[simp] theorem State.respond_phase (s : State) (v : BusValue) : (s.respond v).phase = s.phase := rfl
@[simp] theorem State.respond_selector (s : State) (v : BusValue) : (s.respond v).selector = s.selector := rfl
@[simp] theorem State.respond_fuses (s : State) (v : BusValue) : (s.respond v).fuses = s.fuses := rfl
@[simp] theorem State.respond_validCount (s : State) (v : BusValue) : (s.respond v).validCount = s.validCount := rfl
@[simp] theorem State.respond_backing (s : State) (v : BusValue) : (s.respond v).backing = s.backing := rfl
@[simp] theorem State.respond_readOnly (s : State) (v : BusValue) : (s.respond v).readOnly = s.readOnly := rfl
@[simp] theorem State.respond_attachError (s : State) (v : BusValue) : (s.respond v).attachError = s.attachError := rfl
@[simp] theorem State.respond_rejected (s : State) (v : BusValue) : (s.respond v).rejected = s.rejected := rfl
@[simp] theorem State.respond_readResults (s : State) (v : BusValue) : (s.respond v).readResults = s.readResults ++ [v] := rfl
@[simp] theorem State.respond_diagnostics (s : State) (v : BusValue) : (s.respond v).diagnostics = s.diagnostics := rfl
@[simp] theorem State.respond_mediumCalls (s : State) (v : BusValue) : (s.respond v).mediumCalls = s.mediumCalls := rfl
@[simp] theorem State.respond_pending (s : State) (v : BusValue) : (s.respond v).pending = s.pending := rfl

@[simp] theorem State.diagnose_phase (s : State) (d : Diagnostic) : (s.diagnose d).phase = s.phase := rfl
@[simp] theorem State.diagnose_selector (s : State) (d : Diagnostic) : (s.diagnose d).selector = s.selector := rfl
@[simp] theorem State.diagnose_fuses (s : State) (d : Diagnostic) : (s.diagnose d).fuses = s.fuses := rfl
@[simp] theorem State.diagnose_validCount (s : State) (d : Diagnostic) : (s.diagnose d).validCount = s.validCount := rfl
@[simp] theorem State.diagnose_backing (s : State) (d : Diagnostic) : (s.diagnose d).backing = s.backing := rfl
@[simp] theorem State.diagnose_readOnly (s : State) (d : Diagnostic) : (s.diagnose d).readOnly = s.readOnly := rfl
@[simp] theorem State.diagnose_attachError (s : State) (d : Diagnostic) : (s.diagnose d).attachError = s.attachError := rfl
@[simp] theorem State.diagnose_rejected (s : State) (d : Diagnostic) : (s.diagnose d).rejected = s.rejected := rfl
@[simp] theorem State.diagnose_readResults (s : State) (d : Diagnostic) : (s.diagnose d).readResults = s.readResults := rfl
@[simp] theorem State.diagnose_diagnostics (s : State) (d : Diagnostic) : (s.diagnose d).diagnostics = s.diagnostics ++ [d] := rfl
@[simp] theorem State.diagnose_mediumCalls (s : State) (d : Diagnostic) : (s.diagnose d).mediumCalls = s.mediumCalls := rfl
@[simp] theorem State.diagnose_pending (s : State) (d : Diagnostic) : (s.diagnose d).pending = s.pending := rfl

@[simp] theorem State.callMedium_phase (s : State) (c : MediumCall) : (s.callMedium c).phase = s.phase := rfl
@[simp] theorem State.callMedium_selector (s : State) (c : MediumCall) : (s.callMedium c).selector = s.selector := rfl
@[simp] theorem State.callMedium_fuses (s : State) (c : MediumCall) : (s.callMedium c).fuses = s.fuses := rfl
@[simp] theorem State.callMedium_validCount (s : State) (c : MediumCall) : (s.callMedium c).validCount = s.validCount := rfl
@[simp] theorem State.callMedium_backing (s : State) (c : MediumCall) : (s.callMedium c).backing = s.backing := rfl
@[simp] theorem State.callMedium_readOnly (s : State) (c : MediumCall) : (s.callMedium c).readOnly = s.readOnly := rfl
@[simp] theorem State.callMedium_attachError (s : State) (c : MediumCall) : (s.callMedium c).attachError = s.attachError := rfl
@[simp] theorem State.callMedium_rejected (s : State) (c : MediumCall) : (s.callMedium c).rejected = s.rejected := rfl
@[simp] theorem State.callMedium_readResults (s : State) (c : MediumCall) : (s.callMedium c).readResults = s.readResults := rfl
@[simp] theorem State.callMedium_diagnostics (s : State) (c : MediumCall) : (s.callMedium c).diagnostics = s.diagnostics := rfl
@[simp] theorem State.callMedium_mediumCalls (s : State) (c : MediumCall) : (s.callMedium c).mediumCalls = s.mediumCalls ++ [c] := rfl
@[simp] theorem State.callMedium_pending (s : State) (c : MediumCall) : (s.callMedium c).pending = s.pending := rfl

@[simp] theorem State.raiseAttachError_phase (s : State) (e : AttachError) (m : Medium) : (s.raiseAttachError e m).phase = .failed := rfl
@[simp] theorem State.raiseAttachError_selector (s : State) (e : AttachError) (m : Medium) : (s.raiseAttachError e m).selector = s.selector := rfl
@[simp] theorem State.raiseAttachError_fuses (s : State) (e : AttachError) (m : Medium) : (s.raiseAttachError e m).fuses = s.fuses := rfl
@[simp] theorem State.raiseAttachError_validCount (s : State) (e : AttachError) (m : Medium) : (s.raiseAttachError e m).validCount = s.validCount := rfl
@[simp] theorem State.raiseAttachError_backing (s : State) (e : AttachError) (m : Medium) : (s.raiseAttachError e m).backing = s.backing := rfl
@[simp] theorem State.raiseAttachError_readOnly (s : State) (e : AttachError) (m : Medium) : (s.raiseAttachError e m).readOnly = s.readOnly := rfl
@[simp] theorem State.raiseAttachError_attachError (s : State) (e : AttachError) (m : Medium) : (s.raiseAttachError e m).attachError = some e := rfl
@[simp] theorem State.raiseAttachError_rejected (s : State) (e : AttachError) (m : Medium) : (s.raiseAttachError e m).rejected = some m := rfl
@[simp] theorem State.raiseAttachError_readResults (s : State) (e : AttachError) (m : Medium) : (s.raiseAttachError e m).readResults = s.readResults := rfl
@[simp] theorem State.raiseAttachError_diagnostics (s : State) (e : AttachError) (m : Medium) : (s.raiseAttachError e m).diagnostics = s.diagnostics := rfl
@[simp] theorem State.raiseAttachError_mediumCalls (s : State) (e : AttachError) (m : Medium) : (s.raiseAttachError e m).mediumCalls = s.mediumCalls := rfl
@[simp] theorem State.raiseAttachError_pending (s : State) (e : AttachError) (m : Medium) : (s.raiseAttachError e m).pending = s.pending := rfl

@[simp] theorem State.writeThrough_phase (s : State) (i : Nat) : (s.writeThrough i).phase = s.phase := by
  unfold State.writeThrough
  split
  · rfl
  · split <;> rfl

@[simp] theorem State.writeThrough_selector (s : State) (i : Nat) : (s.writeThrough i).selector = s.selector := by
  unfold State.writeThrough
  split
  · rfl
  · split <;> rfl

@[simp] theorem State.writeThrough_fuses (s : State) (i : Nat) : (s.writeThrough i).fuses = s.fuses := by
  unfold State.writeThrough
  split
  · rfl
  · split <;> rfl

@[simp] theorem State.writeThrough_validCount (s : State) (i : Nat) : (s.writeThrough i).validCount = s.validCount := by
  unfold State.writeThrough
  split
  · rfl
  · split <;> rfl

@[simp] theorem State.writeThrough_readOnly (s : State) (i : Nat) : (s.writeThrough i).readOnly = s.readOnly := by
  unfold State.writeThrough
  split
  · rfl
  · split <;> rfl

@[simp] theorem State.writeThrough_attachError (s : State) (i : Nat) : (s.writeThrough i).attachError = s.attachError := by
  unfold State.writeThrough
  split
  · rfl
  · split <;> rfl

@[simp] theorem State.writeThrough_rejected (s : State) (i : Nat) : (s.writeThrough i).rejected = s.rejected := by
  unfold State.writeThrough
  split
  · rfl
  · split <;> rfl

@[simp] theorem State.writeThrough_readResults (s : State) (i : Nat) : (s.writeThrough i).readResults = s.readResults := by
  unfold State.writeThrough
  split
  · rfl
  · split <;> rfl

@[simp] theorem State.writeThrough_diagnostics (s : State) (i : Nat) : (s.writeThrough i).diagnostics = s.diagnostics := by
  unfold State.writeThrough
  split
  · rfl
  · split <;> rfl

@[simp] theorem State.writeThrough_pending (s : State) (i : Nat) : (s.writeThrough i).pending = s.pending := by
  unfold State.writeThrough
  split
  · rfl
  · split <;> rfl

/-- Reading a fuse looks at the array alone. -/
theorem State.readFuse_congr (s t : State) (h : t.fuses = s.fuses) (i : Nat) : t.readFuse i = s.readFuse i := by
  simp [State.readFuse, h]

end Sys2Proof.Machine
end

