-- ==== Sys2Proof/Laws/Ops.lean ====
section
/-! SUPPORT. One lemma per shared operation that says everything it can do. -/

namespace Sys2Proof.Machine

/-- The bounds check, on numbers. -/
theorem State.inBounds_iff (s : State) : s.inBounds = true ↔ s.selector.toNat < s.validCount.toNat := by
  simp only [State.inBounds, decide_eq_true_eq, BitVec.lt_def, BitVec.toNat_setWidth]
  have := s.validCount.isLt
  rw [Nat.mod_eq_of_lt (by omega)]

theorem State.inBounds_eq_decide (s : State) :
    s.inBounds = decide (s.selector.toNat < s.validCount.toNat) := by
  rw [Bool.eq_iff_iff, s.inBounds_iff, decide_eq_true_eq]

@[simp] theorem State.readFuse_setSelector (s : State) (v : Word) (i : Nat) :
    (s.setSelector v).readFuse i = s.readFuse i := rfl

@[simp] theorem State.readFuse_respond (s : State) (v : BusValue) (i : Nat) :
    (s.respond v).readFuse i = s.readFuse i := rfl

@[simp] theorem State.readFuse_diagnose (s : State) (d : Diagnostic) (i : Nat) :
    (s.diagnose d).readFuse i = s.readFuse i := rfl

@[simp] theorem State.readFuse_callMedium (s : State) (c : MediumCall) (i : Nat) :
    (s.callMedium c).readFuse i = s.readFuse i := rfl

@[simp] theorem State.readFuse_raiseAttachError (s : State) (e : AttachError) (m : Medium) (i : Nat) :
    (s.raiseAttachError e m).readFuse i = s.readFuse i := rfl

@[simp] theorem State.readFuse_writeThrough (s : State) (j i : Nat) :
    (s.writeThrough j).readFuse i = s.readFuse i := by
  simp [State.readFuse]

/-- A fuse write changes that fuse and no other. -/
theorem State.readFuse_writeFuse (s : State) (j i : Nat) (v : Word) (h : Memory.wf s.fuses = true) :
    (s.writeFuse j v).readFuse i = if i = j then v else s.readFuse i :=
  Memory.read_write s.fuses j i v h

/-- With no medium, or a read-only one, the write-through does nothing. -/
theorem State.writeThrough_of_not_writable (s : State) (i : Nat) (h : s.backing = none ∨ s.readOnly = true) :
    s.writeThrough i = s := by
  unfold State.writeThrough
  split
  · rfl
  · next m hm =>
    rcases h with h | h
    · rw [h] at hm
      cases hm
    · rw [if_pos h]

/-- With a writable medium it makes one `write_at` and changes nothing but the medium and the list of calls. -/
theorem State.writeThrough_of_writable (s : State) (i : Nat) (m : Medium) (hm : s.backing = some m)
    (h : s.readOnly = false) :
    s.writeThrough i =
      { s with
        mediumCalls := s.mediumCalls ++ [.writeAt (byteOffset i) (le32 (s.readFuse i)) m.nextOk]
        backing := some (m.writeAt (byteOffset i) (le32 (s.readFuse i))) } := by
  unfold State.writeThrough
  simp [hm, h, State.callMedium]

/-- A bus access completes exactly with a delivered size in a phase that accepts it. -/
theorem busAccess_eq_next_iff (size : Nat) (s t : State) (f : State → State) :
    busAccess size s f = .next t ↔ sizeDelivered size = true ∧ s.phase.acceptsBus = true ∧ t = f s := by
  unfold busAccess
  cases hs : sizeDelivered size <;> cases hp : s.phase.acceptsBus <;> simp [eq_comm]

theorem lifecycle_eq_next_iff (a : Bool) (s t : State) (f : State → State) :
    lifecycle a s f = .next t ↔ a = true ∧ t = f s := by
  unfold lifecycle
  cases a <;> simp [eq_comm]

theorem undecodedAccess_eq_next_iff (o : Offset) (size : Nat) (s t : State) (f : State → State) :
    undecodedAccess o size s f = .next t ↔
      offsetDecoded o = false ∧ sizeDelivered size = true ∧ s.phase.acceptsBus = true ∧ t = f s := by
  unfold undecodedAccess
  cases ho : offsetDecoded o
  · simp [busAccess_eq_next_iff]
  · simp

end Sys2Proof.Machine
end

