-- ==== Sys2Proof/Laws/Exec.lean ====
section
/-! SUPPORT. When an operation completes and with what: `exec` taken apart once, for every proof about a next state. -/

namespace Sys2Proof.Machine

/-- The operands can be delivered: as `Instr.wf`, but nothing is asked of a medium. -/
def operandsDelivered : Instr → Bool
  | .rdSelector size => sizeDelivered size
  | .wrSelector size _ => sizeDelivered size
  | .rdData size => sizeDelivered size
  | .wrData size _ => sizeDelivered size
  | .rdInvalid offset size => !offsetDecoded offset && sizeDelivered size
  | .wrInvalid offset size _ => !offsetDecoded offset && sizeDelivered size
  | .reset => true
  | .attachNone => true
  | .attachMedium _ => true

/-- The phase accepts the operation. -/
def phaseAccepts (p : Phase) : Instr → Bool
  | .rdSelector _ => p.acceptsBus
  | .wrSelector _ _ => p.acceptsBus
  | .rdData _ => p.acceptsBus
  | .wrData _ _ => p.acceptsBus
  | .rdInvalid _ _ => p.acceptsBus
  | .wrInvalid _ _ _ => p.acceptsBus
  | .reset => p.acceptsReset
  | .attachNone => p.acceptsAttach
  | .attachMedium _ => p.acceptsAttach

/-- The state an accepted operation leaves. -/
def effect : Instr → State → State
  | .rdSelector _, s => s.respond (zext64 s.selector)
  | .wrSelector _ value, s => s.setSelector (trunc32 value)
  | .rdData _, s => readData s
  | .wrData _ value, s => writeData value s
  | .rdInvalid offset _, s => (s.diagnose (.invalidRead offset)).respond 0
  | .wrInvalid offset _ _, s => s.diagnose (.invalidWrite offset)
  | .reset, s => resetController s
  | .attachNone, s => attachNoMedium s
  | .attachMedium m, s => attachWithMedium m s

/-- An operation answers a next state exactly when its operands can be delivered and the phase accepts it, and that
state is its effect. -/
theorem exec_eq_next_iff (i : Instr) (s t : State) :
    exec i s = .next t ↔ operandsDelivered i = true ∧ phaseAccepts s.phase i = true ∧ t = effect i s := by
  cases i <;>
    simp [exec, execRdSelector, execWrSelector, execRdData, execWrData, execRdInvalid, execWrInvalid, execReset,
      execAttachNone, execAttachMedium, busAccess_eq_next_iff, undecodedAccess_eq_next_iff, lifecycle_eq_next_iff,
      operandsDelivered, phaseAccepts, effect, and_assoc]

/-- Well-formed operands can be delivered. -/
theorem operandsDelivered_of_wf (i : Instr) (h : i.wf = true) : operandsDelivered i = true := by
  cases i <;> first | exact h | rfl

/-- The operation never faults. -/
theorem exec_ne_fault (i : Instr) (s : State) (r : Fault) : exec i s ≠ .fault r := nomatch r

/-- A step takes the first pending stimulus and runs what it decodes to. -/
theorem step_eq_next_iff (s u : State) :
    step s = .next u ↔
      ∃ t rest i, s.pending = t :: rest ∧ decode t = .ok i ∧ exec i { s with pending := rest } = .next u := by
  unfold step
  split
  · next h => simp [h]
  · next t rest h =>
    split
    · next hd => simp [h, hd]
    · next i hd => simp [h, hd]

/-- What WR_DATA leaves in bounds. -/
theorem writeData_of_inBounds (value : BusValue) (s : State) (h : s.inBounds = true) :
    writeData value s =
      (s.writeFuse s.selector.toNat (s.readFuse s.selector.toNat ||| trunc32 value)).writeThrough s.selector.toNat := by
  simp [writeData, h]

/-- What WR_DATA leaves out of bounds. -/
theorem writeData_of_not_inBounds (value : BusValue) (s : State) (h : s.inBounds = false) :
    writeData value s = s.diagnose (.outOfBoundsWrite s.selector value) := by
  simp [writeData, h]

/-- What RD_DATA leaves in bounds. -/
theorem readData_of_inBounds (s : State) (h : s.inBounds = true) :
    readData s = s.respond (zext64 (s.readFuse s.selector.toNat)) := by
  simp [readData, h]

/-- What RD_DATA leaves out of bounds. -/
theorem readData_of_not_inBounds (s : State) (h : s.inBounds = false) :
    readData s = (s.diagnose (.outOfBoundsRead s.selector)).respond 0 := by
  simp [readData, h]

end Sys2Proof.Machine
end

