-- ==== Sys2Proof/Laws/Attach.lean ====
section
/-! SUPPORT. The five ways an attach with a medium ends, in the order of its checks (spec/60_exceptions.md R104). -/

namespace Sys2Proof.Machine

/-- The load writes the words below the count and no other. -/
theorem read_loadWords (m : Medium) (j : Nat) : ∀ (n : Nat) (fuses : Memory 32), Memory.wf fuses = true →
    Memory.wf (loadWords m n fuses) = true ∧
      Memory.read (loadWords m n fuses) j = if j < n then m.word j else Memory.read fuses j
  | 0, fuses, h => ⟨h, by simp [loadWords]⟩
  | n + 1, fuses, h => by
    obtain ⟨hw, hr⟩ := read_loadWords m j n fuses h
    refine ⟨Memory.wf_write _ _ _ hw, ?_⟩
    rw [loadWords, Memory.read_write _ _ _ _ hw, hr]
    by_cases hj : j = n
    · subst hj
      simp
    · by_cases hlt : j < n
      · rw [if_neg hj, if_pos hlt, if_pos (by omega)]
      · rw [if_neg hj, if_neg hlt, if_neg (by omega)]

/-- It stays below the count where the array did. -/
theorem below_loadWords (m : Medium) : ∀ (n b : Nat) (fuses : Memory 32), n ≤ b → Memory.below b fuses = true →
    Memory.below b (loadWords m n fuses) = true
  | 0, _, _, _, h => h
  | n + 1, b, fuses, hb, h => Memory.below_write _ (by omega) (below_loadWords m n b fuses (by omega) h)

/-- The state after the capability query and the permission request. -/
def afterPermission (m : Medium) (s : State) : State :=
  { s with
    readOnly := !m.writable
    mediumCalls := s.mediumCalls ++
      [.queryWriteCapability m.writable, .requestPermissions true m.writable (!m.failsCall 0)] }

/-- The attach, as one chain of checks over explicit states. -/
theorem attachWithMedium_eq (m : Medium) (s : State) :
    attachWithMedium m s =
      if m.failsCall 0 = true then (afterPermission m s).raiseAttachError .permissionDenied m.answered
      else if m.failsCall 1 = true then
        ((afterPermission m s).callMedium (.length none)).raiseAttachError .sizeQueryFailed m.answered.answered
      else if Config.capacity < countOfLength m.length then
        ((afterPermission m s).callMedium (.length (some m.length))).raiseAttachError .mediumTooLarge
          m.answered.answered
      else if m.failsCall 2 = true then
        { ((afterPermission m s).callMedium (.length (some m.length))).callMedium (.readAll m.length false) with
          validCount := BitVec.ofNat 16 (countOfLength m.length)
          phase := .failed
          attachError := some .loadFailed
          rejected := some m.answered.answered.answered }
      else
        { ((afterPermission m s).callMedium (.length (some m.length))).callMedium (.readAll m.length true) with
          validCount := BitVec.ofNat 16 (countOfLength m.length)
          fuses := loadWords m.answered.answered.answered (countOfLength m.length) s.fuses
          backing := some m.answered.answered.answered
          phase := .withMedium } := by
  unfold attachWithMedium attachPermission attachSize attachCount attachLoad afterPermission
  simp only [Medium.nextOk_eq, Medium.failsCall_answered, State.callMedium, State.raiseAttachError]
  cases m.failsCall 0
  · cases m.failsCall (0 + 1)
    · by_cases hc : Config.capacity < countOfLength m.length
      · simp [hc]
      · cases m.failsCall (0 + 1 + 1) <;> simp [hc]
    · simp
  · simp

/-- Whatever the outcome, an attach leaves the selector, the read results, the diagnostics and the pending stimuli. -/
theorem attachWithMedium_frame (m : Medium) (s : State) :
    (attachWithMedium m s).selector = s.selector ∧ (attachWithMedium m s).readResults = s.readResults ∧
      (attachWithMedium m s).diagnostics = s.diagnostics ∧ (attachWithMedium m s).pending = s.pending ∧
      (attachWithMedium m s).readOnly = !m.writable := by
  rw [attachWithMedium_eq]
  refine ⟨?_, ?_, ?_, ?_, ?_⟩ <;> (repeat' split) <;> rfl

end Sys2Proof.Machine
end

