-- ==== Sys2Proof/Laws/Decode.lean ====
section
/-! SUPPORT. The decoder in terms of the fields of the stimulus word (spec/30_encoding.md R55): R57's table of masks, read
once. -/

namespace Sys2Proof

theorem toNat_append_add {n m : Nat} (a : BitVec n) (b : BitVec m) : (a ++ b).toNat = a.toNat * 2 ^ m + b.toNat := by
  rw [BitVec.toNat_append, ← Nat.shiftLeft_add_eq_or_of_lt b.isLt, Nat.shiftLeft_eq]

theorem toNat_stimulusWord (k : BitVec 2) (d : BitVec 1) (o : Offset) :
    (stimulusWord k d o).toNat = 0x2000 * k.toNat + 0x1000 * d.toNat + o.toNat := by
  simp only [stimulusWord, toNat_append_add]
  omega

/-- Two words are equal exactly when their fields are. -/
theorem stimulusWord_inj (k k' : BitVec 2) (d d' : BitVec 1) (o o' : Offset) :
    stimulusWord k d o = stimulusWord k' d' o' ↔ k = k' ∧ d = d' ∧ o = o' := by
  constructor
  · intro h
    have hn := congrArg BitVec.toNat h
    rw [toNat_stimulusWord, toNat_stimulusWord] at hn
    have := o.isLt
    have := o'.isLt
    have := d.isLt
    have := d'.isLt
    refine ⟨?_, ?_, ?_⟩ <;> apply BitVec.eq_of_toNat_eq <;> omega
  · rintro ⟨rfl, rfl, rfl⟩
    rfl

/-- A mask acts on each field. -/
theorem stimulusWord_and (k k' : BitVec 2) (d d' : BitVec 1) (o o' : Offset) :
    stimulusWord k d o &&& stimulusWord k' d' o' = stimulusWord (k &&& k') (d &&& d') (o &&& o') := by
  have h := BitVec.and_append (x₁ := k ++ d) (x₂ := k' ++ d') (y₁ := o) (y₂ := o')
  rw [BitVec.and_append (x₁ := k) (x₂ := k')] at h
  exact h

@[simp] theorem offsetField_stimulusWord (k : BitVec 2) (d : BitVec 1) (o : Offset) :
    offsetField (stimulusWord k d o) = o := by
  apply BitVec.eq_of_toNat_eq
  have := o.isLt
  simp only [offsetField, BitVec.extractLsb'_toNat, toNat_stimulusWord, Nat.shiftRight_zero]
  omega

/-- Every word is made of fields. -/
theorem exists_stimulusWord (w : StimulusWord) : ∃ k d o, w = stimulusWord k d o := by
  refine ⟨w.extractLsb' 13 2, w.extractLsb' 12 1, w.extractLsb' 0 12, ?_⟩
  apply BitVec.eq_of_toNat_eq
  have := w.isLt
  simp only [toNat_stimulusWord, BitVec.extractLsb'_toNat, Nat.shiftRight_eq_div_pow]
  omega

/-- A row of the table matches a word by its fields: the row's pattern and mask, laid out. -/
theorem matchesWord_fields (op : Operation) (kp km k : BitVec 2) (dp dm d : BitVec 1) (p m o : Offset) :
    OpcodeRow.matchesWord ⟨op, stimulusWord kp dp p, stimulusWord km dm m⟩ (stimulusWord k d o) =
      decide (k &&& km = kp ∧ d &&& dm = dp ∧ o &&& m = p) := by
  simp only [OpcodeRow.matchesWord, stimulusWord_and]
  rw [Bool.eq_iff_iff, beq_iff_eq, stimulusWord_inj, decide_eq_true_iff]

/-- The table's rows, their patterns and masks as fields. -/
theorem opcodeTable_fields : opcodeTable = [
    ⟨.rdSelector, stimulusWord 0 0 0, stimulusWord 3 1 0xFFF⟩,
    ⟨.wrSelector, stimulusWord 0 1 0, stimulusWord 3 1 0xFFF⟩,
    ⟨.rdData, stimulusWord 0 0 4, stimulusWord 3 1 0xFFF⟩,
    ⟨.wrData, stimulusWord 0 1 4, stimulusWord 3 1 0xFFF⟩,
    ⟨.rdInvalid, stimulusWord 0 0 0, stimulusWord 3 1 0⟩,
    ⟨.wrInvalid, stimulusWord 0 1 0, stimulusWord 3 1 0⟩,
    ⟨.reset, stimulusWord 1 0 0, stimulusWord 3 0 0⟩,
    ⟨.attachNone, stimulusWord 2 0 0, stimulusWord 3 1 0⟩,
    ⟨.attachMedium, stimulusWord 2 1 0, stimulusWord 3 1 0⟩] := by
  decide

/-- What the decoder selects, by the fields. -/
theorem decodeOperation_stimulusWord (k : BitVec 2) (d : BitVec 1) (o : Offset) :
    decodeOperation (stimulusWord k d o) =
      if k = 0 then
        if d = 0 then
          some (if o = 0 then .rdSelector else if o = 4 then .rdData else .rdInvalid)
        else some (if o = 0 then .wrSelector else if o = 4 then .wrData else .wrInvalid)
      else if k = 1 then some .reset
      else if k = 2 then some (if d = 0 then .attachNone else .attachMedium)
      else none := by
  have ho : o &&& 0xFFF = o := by
    have : (0xFFF : Offset) = BitVec.allOnes 12 := by decide
    rw [this, BitVec.and_allOnes]
  have hk : k = 0 ∨ k = 1 ∨ k = 2 ∨ k = 3 := by revert k; decide
  have hd : d = 0 ∨ d = 1 := by revert d; decide
  simp only [decodeOperation, opcodeTable_fields, List.find?, matchesWord_fields, ho]
  rcases hk with rfl | rfl | rfl | rfl <;> rcases hd with rfl | rfl <;> by_cases h0 : o = 0 <;>
    by_cases h4 : o = 4 <;> simp_all

/-- The kind field is `11` exactly from 0x6000 up. -/
theorem decodeOperation_eq_none_iff (w : StimulusWord) : decodeOperation w = none ↔ 0x6000 ≤ w.toNat := by
  obtain ⟨k, d, o, rfl⟩ := exists_stimulusWord w
  have hk : k = 0 ∨ k = 1 ∨ k = 2 ∨ k = 3 := by revert k; decide
  have := o.isLt
  have := d.isLt
  rw [decodeOperation_stimulusWord, toNat_stimulusWord]
  rcases hk with rfl | rfl | rfl | rfl
  · simp only [if_true]
    split <;> simp <;> omega
  · simp
    omega
  · simp
    omega
  · simp
    omega

end Sys2Proof
end

