-- ==== Sys2Proof/Laws/PerInstr.lean ====
section
/-! SUPPORT. Per operation: the word of a well-formed instruction selects its own row of R57's table. -/

namespace Sys2Proof.Laws.EncodedWord

/-- The encoded word of a well-formed instruction selects the instruction's operation (spec/30_encoding.md R55, R57). -/
def Statement (i : Instr) : Prop := i.wf = true → decodeOperation (encode i).word = some i.operation

theorem rdSelector (size : Nat) : Statement (.rdSelector size) := fun _ =>
  decodeOperation_stimulusWord 0 0 Config.addrSelector

theorem wrSelector (size : Nat) (value : BusValue) : Statement (.wrSelector size value) := fun _ =>
  decodeOperation_stimulusWord 0 1 Config.addrSelector

theorem rdData (size : Nat) : Statement (.rdData size) := fun _ => decodeOperation_stimulusWord 0 0 Config.addrData

theorem wrData (size : Nat) (value : BusValue) : Statement (.wrData size value) := fun _ =>
  decodeOperation_stimulusWord 0 1 Config.addrData

/-- An offset that selects no register is neither of the two decoded ones. -/
theorem offset_ne_of_wf {offset : Offset} {size : Nat} (h : (!offsetDecoded offset && sizeDelivered size) = true) :
    offset ≠ 0 ∧ offset ≠ 4 := by
  constructor <;> rintro rfl <;> simp [offsetDecoded, Config.addrSelector, Config.addrData] at h

theorem rdInvalid (offset : Offset) (size : Nat) : Statement (.rdInvalid offset size) := fun h => by
  obtain ⟨h0, h4⟩ := offset_ne_of_wf h
  have := decodeOperation_stimulusWord 0 0 offset
  rwa [if_neg h0, if_neg h4] at this

theorem wrInvalid (offset : Offset) (size : Nat) (value : BusValue) : Statement (.wrInvalid offset size value) :=
  fun h => by
    obtain ⟨h0, h4⟩ := offset_ne_of_wf h
    have := decodeOperation_stimulusWord 0 1 offset
    rwa [if_pos rfl, if_neg (by decide), if_neg h0, if_neg h4] at this

theorem reset : Statement .reset := fun _ => decodeOperation_stimulusWord 1 0 0

theorem attachNone : Statement .attachNone := fun _ => decodeOperation_stimulusWord 2 0 0

theorem attachMedium (medium : Medium) : Statement (.attachMedium medium) := fun _ =>
  decodeOperation_stimulusWord 2 1 0

end Sys2Proof.Laws.EncodedWord
end

