-- ==== Sys2Proof/Tests/Slice0.lean ====
section
/-! SUPPORT. Tests of the model, each one step or one decode. Expected values are those of spec/95_test_vectors.md, or of
the rule named. Then, for each statement of Certificates/Slice0/Obligations.lean with hypotheses, a witness that meets
them. -/

namespace Sys2Proof.Tests

open Sys2Proof.Machine

/-! ### Small states -/

/-- The volatile store after its first RESET (the start state of 95_test_vectors.md part 2), with selector and fuses. -/
def volatile (selector : Word) (fuses : Memory 32) : State :=
  { State.reset with
    phase := .volatilePopulated, validCount := 1024, selector := selector, fuses := fuses }

/-- The volatile store before its first RESET. -/
def unpopulated (selector : Word) : State :=
  { State.reset with phase := .volatileUnpopulated, selector := selector }

/-- The medium of 95_test_vectors.md 2.6: bytes 01 00 00 00 F0 00 00 00. -/
def eightBytes (writable : Bool) (failing : List Nat) (calls : Nat) : Medium :=
  { length := 8, cells := [(0, 0x01), (4, 0xF0)], writable := writable, failing := failing, calls := calls }

/-- The medium of program P7: bytes 11 22 33 44 55. -/
def fiveBytes : Medium :=
  { length := 5, cells := [(0, 0x11), (1, 0x22), (2, 0x33), (3, 0x44), (4, 0x55)], writable := true, failing := [],
    calls := 0 }

/-- The start state of 95_test_vectors.md 2.6, the medium's call number 3 failing if `fails`. -/
def attached (selector : Word) (writable fails : Bool) : State :=
  { State.reset with
    phase := .withMedium, selector := selector, fuses := [(0, 0x00000001), (1, 0x000000F0)], validCount := 2,
    backing := some (eightBytes writable (if fails then [3] else []) 3), readOnly := !writable }

/-- The next state, or the given one where there is none. -/
def nextOr (d : State) : Host.Outcome State Fault Refusal → State
  | .next s => s
  | .fault _ => d
  | .refused _ => d

/-- The refusal, if the outcome is one. -/
def refusalOf : Host.Outcome State Fault Refusal → Option Refusal
  | .next _ => none
  | .fault _ => none
  | .refused r => some r

/-- The state after an operation. -/
def after (i : Instr) (s : State) : State := nextOr s (exec i s)

/-! ### Well-formedness refuses -/

theorem test_wf_size_3 : (Instr.rdSelector 3).wf = false := by decide
theorem test_wf_size_9 : (Instr.wrData 9 0).wf = false := by decide
theorem test_wf_size_8 : (Instr.wrSelector 8 0).wf = true := by decide
theorem test_wf_offset_selector : (Instr.rdInvalid 0x000 4).wf = false := by decide
theorem test_wf_offset_data : (Instr.wrInvalid 0x004 4 0).wf = false := by decide
theorem test_wf_cells_unsorted :
    (Instr.attachMedium { Medium.blank with length := 8, cells := [(4, 1), (0, 1)] }).wf = false := by decide
theorem test_wf_cells_hold_zero :
    (Instr.attachMedium { Medium.blank with length := 8, cells := [(4, 0)] }).wf = false := by decide
theorem test_wf_cells_past_the_end :
    (Instr.attachMedium { Medium.blank with length := 8, cells := [(8, 1)] }).wf = false := by decide
theorem test_wf_length_bound :
    (Instr.attachMedium { Medium.blank with length := 2 ^ 64 }).wf = false := by decide
theorem test_wf_medium : (Instr.attachMedium fiveBytes).wf = true := by decide

/-! ### The constants (spec/00_scope.md R3) -/

theorem test_constants :
    Config.capacity * Config.fuseBytes = Config.windowBytes ∧ Config.fuseBits = 8 * Config.fuseBytes ∧
      Config.selectorBits = 32 ∧ Config.validCountBits = 16 ∧ Config.busDataBits = 8 * Config.sizeMax := by decide

/-! ### Decoding: the words of 95_test_vectors.md 2.1, written out as `k d o` from R57's patterns -/

theorem test_decode_rdSelector : decodeTableWord 16 0b000000000000000 = some (.rdSelector 4) := by decide
theorem test_decode_wrSelector : decodeTableWord 16 0b001000000000000 = some (.wrSelector 4 0) := by decide
theorem test_decode_rdData : decodeTableWord 16 0b000000000000100 = some (.rdData 4) := by decide
theorem test_decode_wrData : decodeTableWord 16 0b001000000000100 = some (.wrData 4 0) := by decide
theorem test_decode_rdInvalid : decodeTableWord 16 0b000000000000101 = some (.rdInvalid 0x005 4) := by decide
theorem test_decode_wrInvalid : decodeTableWord 16 0b001111111111111 = some (.wrInvalid 0xFFF 4 0) := by decide
theorem test_decode_reset : decodeTableWord 16 0b011101010111100 = some .reset := by decide
theorem test_decode_attachNone : decodeTableWord 16 0b100000100100011 = some .attachNone := by decide
theorem test_decode_attachMedium : decodeTableWord 16 0b101000000000000 = some (.attachMedium Medium.blank) := by decide
theorem test_decode_reserved : decodeTableWord 16 0b110000000000000 = none := by decide
theorem test_decode_not_a_word : decodeTableWord 16 0x8000 = none := by decide

/-- Rows of order 1 exclude one another: no word matches two (R57). -/
theorem test_order_one_rows_are_exclusive :
    (opcodeTable.filter fun r => !(r.operation == .rdInvalid || r.operation == .wrInvalid)).Pairwise
      fun r r' => r.pattern &&& r'.mask ≠ r'.pattern &&& r.mask := by decide

/-! ### The very next step after reset runs the table word -/

theorem test_fetch_rows_complete :
    [0x0000, 0x1000, 0x0004, 0x1004, 0x0008, 0x1008, 0x2000, 0x4000, 0x5000].all
      (fun w => completes (step (State.reset.withFetchWord 16 w))) = true := by decide

theorem test_fetch_reserved : refusalOf (step (State.reset.withFetchWord 16 0x6000)) = some .reservedKind := by decide

theorem test_nothing_pending : refusalOf (step State.reset) = some .noStimulus := by decide

/-! ### Operations -/

/-- 2.2, row 2. -/
theorem test_rdSelector : (after (.rdSelector 8) (volatile 0xFFFFFFFF [])).readResults = [0x00000000FFFFFFFF] := by decide
/-- 2.2, row 6. -/
theorem test_wrSelector_narrows :
    (after (.wrSelector 8 0x123456789ABCDEF0) (volatile 0 [])).selector = 0x9ABCDEF0 := by decide
/-- 2.2, row 7: replaced, not ORed. -/
theorem test_wrSelector_replaces : (after (.wrSelector 4 0x1) (volatile 0xFFFF [])).selector = 0x1 := by decide
/-- 2.3, row 8: no sign extension. -/
theorem test_rdData : (after (.rdData 8) (volatile 5 [(5, 0x800000FF)])).readResults = [0x00000000800000FF] := by decide
/-- 2.3, row 17: the selector is not narrowed to 16 bits. -/
theorem test_rdData_out_of_bounds :
    after (.rdData 4) (volatile 0x00010005 [(5, 0xFF)]) =
      { volatile 0x00010005 [(5, 0xFF)] with
        readResults := [0], diagnostics := [.outOfBoundsRead 0x00010005] } := by decide +kernel
/-- 2.3, row 7. -/
theorem test_wrData : (after (.wrData 8 0x1234567880000000) (volatile 5 [(5, 0xFF)])).fuses = [(5, 0x800000FF)] := by
  decide
/-- 2.6, row 1 `[LE]`. -/
theorem test_wrData_writes_through :
    (after (.wrData 4 0x0A0F) (attached 1 true false)).backing =
      some { eightBytes true [] 4 with cells := [(0, 0x01), (4, 0xFF), (5, 0x0A)] } := by decide +kernel
/-- 2.6, row 6: the array and the untouched bytes after a failed `write_at`. -/
theorem test_wrData_write_at_fails :
    let t := after (.wrData 4 0x0A0F) (attached 1 true true)
    t.fuses = [(0, 0x00000001), (1, 0x00000AFF)] ∧ t.diagnostics = [] ∧
      t.mediumCalls = [.writeAt 4 [0xFF, 0x0A, 0x00, 0x00] false] := by decide +kernel
/-- 2.4, row 8: no OutOfBounds also with the selector out of bounds. -/
theorem test_rdInvalid :
    let t := after (.rdInvalid 0x008 4) (volatile 2000 [])
    t.readResults = [0] ∧ t.diagnostics = [.invalidRead 0x008] := by decide
/-- 2.4, row 2. -/
theorem test_wrInvalid :
    let t := after (.wrInvalid 0x008 4 0xFFFFFFFF) (volatile 5 [(5, 0xFF)])
    t.fuses = [(5, 0xFF)] ∧ t.diagnostics = [.invalidWrite 0x008] := by decide
/-- 2.8, row 2. -/
theorem test_reset_volatile :
    let t := after .reset (volatile 5 [(5, 0xFF)])
    t.fuses = [] ∧ t.validCount = 1024 ∧ t.selector = 5 := by decide
/-- 2.8, row 4. -/
theorem test_reset_with_medium : after .reset (attached 1 true false) = attached 1 true false := by decide +kernel
/-- 2.7, row 1. -/
theorem test_attachNone :
    (after .attachNone State.reset).phase = .volatileUnpopulated ∧ (after .attachNone State.reset).validCount = 0 := by
  decide
/-- P7, line 1 `[LE]`. -/
theorem test_attachMedium :
    let t := after (.attachMedium fiveBytes) State.reset
    t.validCount = 2 ∧ t.fuses = [(0, 0x44332211), (1, 0x00000055)] ∧ t.phase = .withMedium := by decide +kernel
/-- 2.7, row 8: the count of 65537 is not narrowed. -/
theorem test_attachMedium_too_large :
    let t := after (.attachMedium { Medium.blank with length := 262148 }) State.reset
    t.phase = .failed ∧ t.attachError = some .mediumTooLarge := by decide +kernel
/-- 2.5, rows 3 and 4. -/
theorem test_sizes_refused :
    refusalOf (exec (.rdData 2) (volatile 5 [])) = some (.sizeNotDelivered 2) ∧
      refusalOf (exec (.wrData 16 1) (volatile 5 [])) = some (.sizeNotDelivered 16) := by decide
/-- 2.8, last row, and 2.7, last row. -/
theorem test_phases_refused :
    refusalOf (exec .reset State.reset) = some (.notAcceptedInPhase .unattached) ∧
      refusalOf (exec (.attachMedium fiveBytes) (attached 1 true false)) = some (.notAcceptedInPhase .withMedium) := by
  decide

/-! ### Witnesses: concrete states and operands that meet the statements' hypotheses together -/

theorem witness_volatile_inv : (volatile 5 [(5, 0xFF)]).Inv where
  fusesCanonical := by decide
  fusesBelowCount := by decide
  countBounded := by decide
  backingByPhase := rfl
  mediumAgrees := fun _ h => nomatch h
  readOnlyWithoutMedium := fun _ _ => rfl
  unpopulated := fun h => by rcases h with h | h <;> cases h
  populated := fun _ => rfl
  errorByPhase := rfl
  rejectedByPhase := rfl
  pendingMedia := fun _ h => nomatch h

theorem witness_unpopulated_inv : (unpopulated 0).Inv where
  fusesCanonical := by decide
  fusesBelowCount := by decide
  countBounded := by decide
  backingByPhase := rfl
  mediumAgrees := fun _ h => nomatch h
  readOnlyWithoutMedium := fun _ _ => rfl
  unpopulated := fun _ => rfl
  populated := fun h => nomatch h
  errorByPhase := rfl
  rejectedByPhase := rfl
  pendingMedia := fun _ h => nomatch h

theorem witness_attached_inv : (attached 1 true false).Inv where
  fusesCanonical := by decide
  fusesBelowCount := by decide
  countBounded := by decide
  backingByPhase := rfl
  mediumAgrees := fun m h => by
    cases h
    decide
  readOnlyWithoutMedium := fun h => nomatch h
  unpopulated := fun h => by rcases h with h | h <;> cases h
  populated := fun h => nomatch h
  errorByPhase := rfl
  rejectedByPhase := rfl
  pendingMedia := fun _ h => nomatch h

theorem witness_attached_coherent : (attached 1 true false).Coherent := by
  intro m h _ _ i hi _
  cases h
  have h2 : i < 2 := hi
  have : i = 0 ∨ i = 1 := by omega
  rcases this with rfl | rfl <;> decide

/-- A pending RESET keeps the invariant and coherence of `attached`, and a step takes it. -/
def pendingReset : State := { attached 1 true false with pending := [encode .reset] }

theorem witness_pendingReset_inv : pendingReset.Inv :=
  { witness_attached_inv with
    pendingMedia := fun t h => by
      have : t = encode .reset := by simpa [pendingReset] using h
      subst this
      decide }

/-- DecodeOfEncodeIsTheOperation. -/
theorem witness_encode : (Instr.wrInvalid 0xFFF 8 0xFF).wf = true ∧ (Instr.rdInvalid 0x001 4).wf = true ∧
    (Instr.attachMedium fiveBytes).wf = true := by decide

/-- OnlyTheReservedKindIsRejected, both clauses at their bounds; BusWordsDecodeByTheWholeOffset, both clauses. -/
theorem witness_words : 0x6000 ≤ (0x6000 : StimulusWord).toNat ∧ (0x5FFF : StimulusWord).toNat < 0x6000 ∧
    (0x0004 : StimulusWord).toNat = (0x004 : Offset).toNat ∧
    (0x1FFF : StimulusWord).toNat = 0x1000 + (0xFFF : Offset).toNat := by decide

/-- StepRunsTheDecodedStimulus, AStepConsumesOneStimulus, EveryStepKeepsTheInvariant, EveryStepKeepsTheMediumCoherent,
TheCountNeverExceedsTheCapacity. -/
theorem witness_step : pendingReset.pending = encode .reset :: [] ∧ decode (encode .reset) = .ok .reset ∧
    completes (step pendingReset) = true ∧ pendingReset.Inv ∧ pendingReset.Coherent ∧
    pendingReset.validCount.toNat ≤ Config.capacity :=
  ⟨rfl, rfl, by decide, witness_pendingReset_inv, witness_attached_coherent, by decide⟩

/-- StepRefusesNothingPendingAndReservedWords: its second clause (its first: `test_nothing_pending`). -/
theorem witness_reserved_word : ({ pendingReset with pending := [{ word := 0x7FFF }] } : State).pending =
    { word := 0x7FFF } :: [] ∧ 0x6000 ≤ (0x7FFF : StimulusWord).toNat := ⟨rfl, by decide⟩

/-- RdSelectorReturnsTheSelector, WrSelectorReplacesTheSelectorUnchecked, UndeliveredAccessesAreRefused (its second
clause), TheSizeMakesNoDifference, at both ends of the sizes, in each phase that accepts a bus access. -/
theorem witness_bus : 4 ≤ 4 ∧ 8 ≤ 8 ∧ (volatile 5 []).phase.acceptsBus = true ∧
    (unpopulated 5).phase.acceptsBus = true ∧ (attached 1 true false).phase.acceptsBus = true := by decide

/-- UndeliveredAccessesAreRefused: its first clause on both sides, its inner one, and its second at both offsets. -/
theorem witness_undelivered : ((3 < 4 ∨ 8 < 3) ∧ (9 < 4 ∨ 8 < 9)) ∧ ((0x005 : Offset) ≠ 0x000 ∧ (0x005 : Offset) ≠ 0x004) ∧
    ((0x000 : Offset) = 0x000 ∨ (0x000 : Offset) = 0x004) ∧ ((0x004 : Offset) = 0x000 ∨ (0x004 : Offset) = 0x004) := by
  decide

/-- RdDataReadsTheSelectedFuse: the last index in bounds and the first out of bounds; WrDataOutOfBoundsOnlyRecords;
BoundsCheckGuardsTheArray (its clauses: in bounds with the invariant, count 0, out of bounds). -/
theorem witness_bounds : (volatile 1023 []).selector.toNat < (volatile 1023 []).validCount.toNat ∧
    (volatile 1024 []).validCount.toNat ≤ (volatile 1024 []).selector.toNat ∧
    ((volatile 5 [(5, 0xFF)]).Inv ∧ (volatile 5 [(5, 0xFF)]).inBounds = true) ∧
    (unpopulated 0).validCount = 0 ∧ (volatile 1024 []).inBounds = false :=
  ⟨by decide, by decide, ⟨witness_volatile_inv, by decide⟩, rfl, by decide⟩

/-- WrDataOrsTheSelectedFuse, WriteThroughStoresTheUpdatedWord (its second clause, with and without a failing call) and
WritesAccumulateByOr. -/
theorem witness_write_through : (attached 1 true false).phase.acceptsBus = true ∧
    Memory.wf (attached 1 true false).fuses = true ∧ (eightBytes true [] 3).wf = true ∧
    (attached 1 true false).selector.toNat < (attached 1 true false).validCount.toNat ∧
    (attached 1 true false).backing = some (eightBytes true [] 3) ∧ (attached 1 true false).readOnly = false ∧
    (eightBytes true [] 3).failsCall 0 = false ∧
    (attached 1 true true).backing = some (eightBytes true [3] 3) ∧ (eightBytes true [3] 3).failsCall 0 = true ∧
    4 * (attached 1 true false).selector.toNat + 3 < (eightBytes true [] 3).length := by decide

/-- WriteThroughStoresTheUpdatedWord: its first clause, each way. -/
theorem witness_no_write_through : (volatile 5 []).backing = none ∧ (attached 1 false false).readOnly = true ∧
    (attached 1 false false).selector.toNat < (attached 1 false false).validCount.toNat := by decide

/-- WritesAccumulateByOr: two orders of three writes, both of which complete. -/
theorem witness_orders : [(0x1 : BusValue), 0x4, 0x2].Perm [0x2, 0x1, 0x4] ∧
    completes (execAll ([0x1, 0x4, 0x2].map (Instr.wrData 4)) (volatile 7 [])) = true ∧
    completes (execAll ([0x2, 0x1, 0x4].map (Instr.wrData 4)) (volatile 7 [])) = true := by decide

/-- OnlyWrSelectorChangesTheSelector, both clauses; OnlyVolatileResetClearsAFuseBit; DiagnosticsAreAppendedAndNeverRead;
RecordsCarryTheirPayload; ThePhaseFollowsTheTable: operations that complete, a set bit. -/
theorem witness_exec : completes (exec (.wrSelector 4 1) (volatile 5 [(5, 0xFF)])) = true ∧
    completes (exec .reset (volatile 5 [(5, 0xFF)])) = true ∧ (∀ size value, Instr.reset ≠ .wrSelector size value) ∧
    (volatile 5 [(5, 0xFF)]).Inv ∧ (Memory.read (volatile 5 [(5, 0xFF)]).fuses 5).getLsbD 7 = true :=
  ⟨by decide, by decide, nofun, witness_volatile_inv, by decide⟩

/-- TheArrayHasThreeWriters: one that changes a fuse, of each of the three. -/
theorem witness_array_writers :
    Memory.read (after (.wrData 4 0xF00) (volatile 5 [(5, 0xFF)])).fuses 5 ≠ 0xFF ∧
    Memory.read (after (.attachMedium fiveBytes) State.reset).fuses 1 ≠ 0 ∧
    Memory.read (after .reset (volatile 5 [(5, 0xFF)])).fuses 5 ≠ 0xFF := by decide +kernel

/-- RdInvalidRecordsAndReturnsZero, WrInvalidOnlyRecords: the least and the greatest undecoded offset. -/
theorem witness_undecoded : ((0x001 : Offset) ≠ 0x000 ∧ (0x001 : Offset) ≠ 0x004) ∧
    ((0xFFF : Offset) ≠ 0x000 ∧ (0xFFF : Offset) ≠ 0x004) ∧ (volatile 5 []).phase.acceptsBus = true := by decide

/-- DeliveredBusAccessesComplete, ReadsChangeNoElementAndRepeat, RepeatedBusWritesAreIdempotent,
BusAccessesCallTheMediumAtMostOnce (both clauses), AFaultyAccessOnlyAddsARecord. -/
theorem witness_bus_operations : (Instr.wrData 4 1).operation.isBus = true ∧ (Instr.wrData 4 1).wf = true ∧
    (Instr.wrData 4 1).operation.isRead = false ∧ (Instr.rdData 4).operation.isRead = true ∧
    completes (exec (.wrData 4 1) (attached 1 true false)) = true ∧
    completes (exec (.wrData 4 1) (attached 1 false false)) = true ∧
    completes (exec (.rdData 4) (attached 1 true false)) = true ∧
    expectedCategories (volatile 1024 []) (.rdData 4) ≠ [] ∧ expectedCategories (volatile 5 []) (.wrInvalid 8 4 0) ≠ [] := by
  decide

/-- TheInitiatorSeesTheWholeResult. -/
theorem witness_view : (after (.rdSelector 5) (volatile 0xFFFFFFFF [])).readResults =
    (volatile 0xFFFFFFFF []).readResults ++ [0xFFFFFFFF] := by decide

/-- ABlownFuseIsSensedAtOnce, at the last valid index. -/
theorem witness_blow : (volatile 0 []).phase.acceptsBus = true ∧ Memory.wf (volatile 0 []).fuses = true ∧
    (1023 : Word).toNat < (volatile 0 []).validCount.toNat := by decide

/-- AttachNoneLeavesTheStoreUnpopulated, AttachMediumLoadsTheArray at the greatest length, and each failing case of
AttachErrorsInOrder, the third at the least length that fails. -/
theorem witness_attach : State.reset.phase = .unattached ∧ Memory.wf State.reset.fuses = true ∧
    { Medium.blank with length := 4096 }.failsCall 0 = false ∧ { Medium.blank with length := 4096 }.failsCall 1 = false ∧
    { Medium.blank with length := 4096 }.failsCall 2 = false ∧ { Medium.blank with length := 4096 }.length ≤ 4096 ∧
    (eightBytes true [0] 0).failsCall 0 = true ∧
    ((eightBytes true [1] 0).failsCall 0 = false ∧ (eightBytes true [1] 0).failsCall 1 = true) ∧
    4096 < { Medium.blank with length := 4097 }.length ∧
    ((eightBytes true [2] 0).failsCall 0 = false ∧ (eightBytes true [2] 0).failsCall 1 = false ∧
      (eightBytes true [2] 0).length ≤ 4096 ∧ (eightBytes true [2] 0).failsCall 2 = true) := by decide

/-- AttachErrorsInOrder, its last clause: an operation that changes the recorded error. -/
theorem witness_attach_error :
    (after (.attachMedium (eightBytes true [0] 0)) State.reset).attachError ≠ State.reset.attachError := by decide

/-- TheUnpopulatedStoreDropsDataAccesses. -/
theorem witness_unpopulated : (unpopulated 0).Inv ∧ (unpopulated 0).phase = .volatileUnpopulated :=
  ⟨witness_unpopulated_inv, rfl⟩

/-- ResetZeroFillsAVolatileStore, ResetLeavesAMediumStoreAlone. -/
theorem witness_reset : (volatile 5 [(5, 0xFF)]).phase.acceptsReset = true ∧ (volatile 5 [(5, 0xFF)]).backing = none ∧
    (attached 1 true false).phase.acceptsReset = true ∧
    (attached 1 true false).backing = some (eightBytes true [] 3) := by decide

/-- StimuliAreAcceptedAsTheTableLists, both clauses; AFailedControllerTakesNoStep. -/
theorem witness_table : (Instr.rdData 4).wf = true ∧ pairListed .volatileUnpopulated (Instr.rdData 4).operation = true ∧
    pairListed .unattached (Instr.rdData 4).operation = false ∧
    ({ State.reset with phase := .failed } : State).phase = .failed := by decide

/-- AnAttachedMediumChangesOnlyByWriteThrough, with a byte that changes. -/
theorem witness_medium_changes : (attached 1 true false).Inv ∧
    (attached 1 true false).backing = some (eightBytes true [] 3) ∧
    completes (exec (.wrData 4 0x0A0F) (attached 1 true false)) = true ∧
    (∀ m, (after (.wrData 4 0x0A0F) (attached 1 true false)).backing = some m →
      m.byte 5 ≠ (eightBytes true [] 3).byte 5) :=
  ⟨witness_attached_inv, rfl, by decide, fun m h => by
    rw [test_wrData_writes_through] at h
    cases h
    decide⟩

/-- AReattachedMediumReproducesTheFuses. -/
theorem witness_round_trip : (attached 1 true false).Inv ∧ (attached 1 true false).Coherent ∧
    (attached 1 true false).phase = .withMedium ∧ (attached 1 true false).mediumCalls = [] ∧
    (attached 1 true false).selector.toNat < (attached 1 true false).validCount.toNat ∧
    (eightBytes true [] 3).writable = true ∧ (eightBytes true [] 3).length % 4 = 0 ∧
    ((eightBytes true [] 3).failsCall 0 = false ∧ (eightBytes true [] 3).failsCall 1 = false ∧
      (eightBytes true [] 3).failsCall 2 = false ∧ (eightBytes true [] 3).failsCall 3 = false) ∧
    completes (exec (.wrData 4 0x0A0F) (attached 1 true false)) = true ∧
    (∀ m, (after (.wrData 4 0x0A0F) (attached 1 true false)).backing = some m →
      completes (exec (.attachMedium m) State.reset) = true) :=
  ⟨witness_attached_inv, witness_attached_coherent, rfl, rfl, by decide, rfl, rfl, by decide, by decide, fun m h => by
    rw [test_wrData_writes_through] at h
    cases h
    decide⟩

/-- TheWindowHidesTheMedium: two stores alike through the window, one volatile and one with a read-only medium. -/
theorem witness_window :
    State.sameThroughWindow { volatile 1 [(0, 1), (1, 0xF0)] with validCount := 2 } (attached 1 false false) ∧
    (∀ i ∈ [Instr.wrData 4 0x0A0F, .rdData 4], i.operation.isBus = true) ∧
    completes (execAll [.wrData 4 0x0A0F, .rdData 4] { volatile 1 [(0, 1), (1, 0xF0)] with validCount := 2 }) = true :=
  ⟨⟨rfl, rfl, rfl, rfl, rfl, rfl⟩, by decide, by decide⟩

end Sys2Proof.Tests
end

section
/-! PROOFS. The array and the count under every operation (spec/10_state.md R24, R26). -/

namespace Sys2Proof.Machine

/-! ### What an operation leaves in the array and in the count -/

@[simp] theorem readData_fuses (s : State) : (readData s).fuses = s.fuses := by
  unfold readData
  split <;> rfl

@[simp] theorem readData_validCount (s : State) : (readData s).validCount = s.validCount := by
  unfold readData
  split <;> rfl

@[simp] theorem writeData_validCount (value : BusValue) (s : State) :
    (writeData value s).validCount = s.validCount := by
  cases hb : s.inBounds
  · rw [writeData_of_not_inBounds value s hb, State.diagnose_validCount]
  · rw [writeData_of_inBounds value s hb, State.writeThrough_validCount, State.writeFuse_validCount]

/-- WR_DATA ORs the value into the selected fuse, in bounds, and leaves every other word (R70). -/
theorem read_writeData_fuses (value : BusValue) (s : State) (j : Nat) (hwf : Memory.wf s.fuses = true) :
    Memory.read (writeData value s).fuses j =
      if s.inBounds = true ∧ j = s.selector.toNat then Memory.read s.fuses j ||| trunc32 value
      else Memory.read s.fuses j := by
  cases hb : s.inBounds
  · rw [writeData_of_not_inBounds value s hb, State.diagnose_fuses, if_neg (by simp)]
  · rw [writeData_of_inBounds value s hb, State.writeThrough_fuses, State.writeFuse_fuses,
      Memory.read_write _ _ _ _ hwf]
    by_cases hj : j = s.selector.toNat
    · simp [hj, State.readFuse]
    · simp [hj]

theorem resetController_of_backing_some (s : State) (m : Medium) (h : s.backing = some m) :
    resetController s = s := by
  simp [resetController, h]

theorem resetController_of_backing_none (s : State) (h : s.backing = none) :
    resetController s =
      { s with fuses := [], validCount := BitVec.ofNat 16 Config.capacity, phase := .volatilePopulated } := by
  simp [resetController, h]

/-- A bus access leaves the count. -/
theorem effect_validCount_of_isBus (i : Instr) (s : State) (h : i.operation.isBus = true) :
    (effect i s).validCount = s.validCount := by
  cases i with
  | rdData size => exact readData_validCount s
  | wrData size value => exact writeData_validCount value s
  | rdSelector | wrSelector | rdInvalid | wrInvalid => rfl
  | reset | attachNone | attachMedium => cases h

/-- An attach stores no count but one that has passed the capacity check (R94). -/
theorem attachWithMedium_validCount (m : Medium) (s : State) :
    (attachWithMedium m s).validCount = s.validCount ∨
      countOfLength m.length ≤ Config.capacity ∧
        (attachWithMedium m s).validCount = BitVec.ofNat 16 (countOfLength m.length) := by
  rw [attachWithMedium_eq]
  split
  · exact .inl rfl
  split
  · exact .inl rfl
  split
  · exact .inl rfl
  next hfits =>
    refine .inr ⟨Nat.le_of_not_lt hfits, ?_⟩
    split <;> rfl

/-! ### The count stays within the capacity -/

theorem toNat_ofNat_le_capacity {n : Nat} (h : n ≤ Config.capacity) :
    (BitVec.ofNat 16 n).toNat ≤ Config.capacity :=
  (BitVec.toNat_ofNat n 16).trans_le ((Nat.mod_le n _).trans h)

theorem resetController_validCount_le (s : State) (h : s.validCount.toNat ≤ Config.capacity) :
    (resetController s).validCount.toNat ≤ Config.capacity := by
  cases hb : s.backing with
  | none =>
    rw [resetController_of_backing_none s hb]
    exact toNat_ofNat_le_capacity le_rfl
  | some m => rwa [resetController_of_backing_some s m hb]

theorem attachWithMedium_validCount_le (m : Medium) (s : State) (h : s.validCount.toNat ≤ Config.capacity) :
    (attachWithMedium m s).validCount.toNat ≤ Config.capacity := by
  rcases attachWithMedium_validCount m s with hkept | ⟨hfits, hstored⟩
  · rwa [hkept]
  · rw [hstored]
    exact toNat_ofNat_le_capacity hfits

theorem effect_validCount_le (i : Instr) (s : State) (h : s.validCount.toNat ≤ Config.capacity) :
    (effect i s).validCount.toNat ≤ Config.capacity := by
  cases i with
  | reset => exact resetController_validCount_le s h
  | attachNone => exact Nat.zero_le _
  | attachMedium m => exact attachWithMedium_validCount_le m s h
  | _ => rwa [effect_validCount_of_isBus _ s rfl]

/-- Settles O44: an attach stores the count only after the capacity check, RESET stores the capacity itself, and the
other operations leave the count or store 0. -/
theorem theCountNeverExceedsTheCapacity : Obligations.TheCountNeverExceedsTheCapacity := by
  refine ⟨Nat.zero_le _, fun s s' hcount hstep => ?_⟩
  obtain ⟨_, rest, i, _, _, hexec⟩ := (step_eq_next_iff s s').1 hstep
  obtain ⟨_, _, rfl⟩ := (exec_eq_next_iff i { s with pending := rest } s').1 hexec
  exact effect_validCount_le i _ hcount

/-! ### A set fuse bit stays set -/

theorem Phase.acceptsAttach_iff (p : Phase) : p.acceptsAttach = true ↔ p = .unattached := by
  cases p <;> decide

/-- Before the store is populated its count is 0, so no word of it is set (R17, R30). -/
theorem State.Inv.fuses_eq_nil_of_unpopulated {s : State} (hinv : s.Inv)
    (hphase : s.phase = .unattached ∨ s.phase = .volatileUnpopulated) : s.fuses = [] := by
  have hbelow := hinv.fusesBelowCount
  rw [hinv.unpopulated hphase] at hbelow
  exact Memory.eq_nil_of_below_zero hbelow

theorem writeData_keeps_set_bit (value : BusValue) {s : State} {j b : Nat} (hwf : Memory.wf s.fuses = true)
    (hbit : (Memory.read s.fuses j).getLsbD b = true) :
    (Memory.read (writeData value s).fuses j).getLsbD b = true := by
  rw [read_writeData_fuses value s j hwf]
  split
  · rw [BitVec.getLsbD_or, hbit, Bool.true_or]
  · exact hbit

theorem effect_keeps_set_bit (i : Instr) {s : State} {j b : Nat} (hinv : s.Inv)
    (haccepts : phaseAccepts s.phase i = true) (hbit : (Memory.read s.fuses j).getLsbD b = true) :
    (Memory.read (effect i s).fuses j).getLsbD b = true ∨ (i = .reset ∧ s.backing = none) := by
  cases i with
  | rdSelector | wrSelector | rdInvalid | wrInvalid | attachNone => exact .inl hbit
  | rdData size => exact .inl ((readData_fuses s).symm ▸ hbit)
  | wrData size value => exact .inl (writeData_keeps_set_bit value hinv.fusesCanonical hbit)
  | reset =>
    cases hb : s.backing with
    | none => exact .inr ⟨rfl, rfl⟩
    | some m => exact .inl (by rwa [effect, resetController_of_backing_some s m hb])
  | attachMedium m =>
    have hempty := hinv.fuses_eq_nil_of_unpopulated (.inl ((Phase.acceptsAttach_iff _).1 haccepts))
    simp [hempty] at hbit

/-- Settles O16: WR_DATA ORs, RESET zero-fills only with no medium, and an attach, the one operation that overwrites
words, finds an array with no bit set. -/
theorem onlyVolatileResetClearsAFuseBit : Obligations.OnlyVolatileResetClearsAFuseBit := by
  intro i s t j b hinv hexec hbit
  obtain ⟨_, haccepts, rfl⟩ := (exec_eq_next_iff i s t).1 hexec
  exact effect_keeps_set_bit i hinv haccepts hbit

end Sys2Proof.Machine
end

section
/-! PROOFS. The bounds check on DATA accesses, and the writers of the array (spec/20_memory.md R44, R52). -/

namespace Sys2Proof.Machine

/-! ### The bounds check -/

theorem sizeDelivered_of_le {size : Nat} (hmin : 4 ≤ size) (hmax : size ≤ 8) : sizeDelivered size = true := by
  simp [sizeDelivered, Config.sizeMin, Config.sizeMax, hmin, hmax]

/-- The invariant bounds the count by the capacity, so a selector in bounds names a fuse that exists (R24, R44). -/
theorem State.Inv.selector_lt_capacity {s : State} (hinv : s.Inv) (hb : s.inBounds = true) :
    s.selector.toNat < Config.capacity :=
  (s.inBounds_iff.1 hb).trans_le hinv.countBounded

theorem State.inBounds_of_validCount_zero {s : State} (h : s.validCount = 0) : s.inBounds = false := by
  rw [s.inBounds_eq_decide, h]
  exact decide_eq_false (Nat.not_lt_zero _)

/-- Settles O17: out of bounds RD_DATA only records and answers 0, and WR_DATA only records; the other clauses are the
bounds check read as numbers. -/
theorem boundsCheckGuardsTheArray : Obligations.BoundsCheckGuardsTheArray := by
  intro size value s hmin hmax hphase
  have hsize := sizeDelivered_of_le hmin hmax
  refine ⟨s.inBounds_iff, State.Inv.selector_lt_capacity, State.inBounds_of_validCount_zero, fun hout => ⟨?_, ?_⟩⟩
  · have hexec := (exec_eq_next_iff (.rdData size) s _).2 ⟨hsize, hphase, rfl⟩
    rw [effect, readData_of_not_inBounds s hout] at hexec
    exact ⟨_, hexec, ⟨rfl, rfl, rfl, rfl, rfl, rfl⟩, rfl⟩
  · have hexec := (exec_eq_next_iff (.wrData size value) s _).2 ⟨hsize, hphase, rfl⟩
    rw [effect, writeData_of_not_inBounds value s hout] at hexec
    exact ⟨_, hexec, ⟨rfl, rfl, rfl, rfl, rfl, rfl⟩, rfl⟩

/-! ### The writers of the array -/

/-- An attach that fails leaves the array; one that succeeds loads the words below the new count, which is the medium's
full count since that has passed the capacity check (R93, R94). -/
theorem attachWithMedium_fuses (m : Medium) (s : State) :
    (attachWithMedium m s).fuses = s.fuses ∨
      (attachWithMedium m s).phase = .withMedium ∧
        (attachWithMedium m s).validCount.toNat = countOfLength m.length ∧
        (attachWithMedium m s).fuses =
          loadWords m.answered.answered.answered (countOfLength m.length) s.fuses := by
  rw [attachWithMedium_eq]
  split
  · exact .inl rfl
  split
  · exact .inl rfl
  split
  · exact .inl rfl
  next hfits =>
    split
    · exact .inl rfl
    · have hcap : Config.capacity < 2 ^ 16 := by decide
      have hcount : countOfLength m.length < 2 ^ 16 := (Nat.le_of_not_lt hfits).trans_lt hcap
      exact .inr ⟨rfl, (BitVec.toNat_ofNat _ 16).trans (Nat.mod_eq_of_lt hcount), rfl⟩

/-- An attach changes no word but, when it succeeds, those below the new count. -/
theorem attachWithMedium_changes_below_count (m : Medium) {s : State} {j : Nat} (hwf : Memory.wf s.fuses = true)
    (hne : Memory.read (attachWithMedium m s).fuses j ≠ Memory.read s.fuses j) :
    (attachWithMedium m s).phase = .withMedium ∧ j < (attachWithMedium m s).validCount.toNat := by
  rcases attachWithMedium_fuses m s with hkept | ⟨hphase, hcount, hloaded⟩
  · exact absurd (by rw [hkept]) hne
  · refine ⟨hphase, ?_⟩
    by_contra hpast
    rw [hcount] at hpast
    rw [hloaded, (read_loadWords _ j _ _ hwf).2, if_neg hpast] at hne
    exact hne rfl

/-- WR_DATA changes no word but, in bounds, the selected one. -/
theorem writeData_changes_selected (value : BusValue) {s : State} {j : Nat} (hwf : Memory.wf s.fuses = true)
    (hne : Memory.read (writeData value s).fuses j ≠ Memory.read s.fuses j) :
    s.selector.toNat < s.validCount.toNat ∧ j = s.selector.toNat := by
  rw [read_writeData_fuses value s j hwf] at hne
  by_cases hsel : s.inBounds = true ∧ j = s.selector.toNat
  · exact ⟨s.inBounds_iff.1 hsel.1, hsel.2⟩
  · exact absurd (if_neg hsel) hne

/-- RESET changes the array only with no medium attached (R97). -/
theorem backing_none_of_resetController_fuses_ne {s : State} {j : Nat}
    (hne : Memory.read (resetController s).fuses j ≠ Memory.read s.fuses j) : s.backing = none := by
  cases hb : s.backing with
  | none => rfl
  | some m => exact absurd (by rw [resetController_of_backing_some s m hb]) hne

/-- Settles O18, operation by operation: all but WR_DATA, ATTACH_MEDIUM and RESET leave the array as it is. -/
theorem theArrayHasThreeWriters : Obligations.TheArrayHasThreeWriters := by
  intro i s t j hwf hexec hne
  obtain ⟨_, _, rfl⟩ := (exec_eq_next_iff i s t).1 hexec
  cases i with
  | rdSelector | wrSelector | rdInvalid | wrInvalid | attachNone => exact absurd rfl hne
  | rdData size => exact absurd (by rw [effect, readData_fuses]) hne
  | wrData size value => exact .inl ⟨size, value, rfl, writeData_changes_selected value hwf hne⟩
  | attachMedium m => exact .inr (.inl ⟨m, rfl, attachWithMedium_changes_below_count m hwf hne⟩)
  | reset => exact .inr (.inr ⟨rfl, backing_none_of_resetController_fuses_ne hne⟩)

end Sys2Proof.Machine
end

section
/-! PROOFS. What a delivered access to a register or to an undecoded offset answers, and the accumulation of writes to
one fuse (spec/40_register_access.md R67 to R71, R74, R76). -/

namespace Sys2Proof.Machine

/-! ### A delivered bus access answers its effect -/

/-- A bus access asks of the phase only that it accepts the bus (R77). -/
theorem phaseAccepts_of_isBus (p : Phase) (i : Instr) (hbus : i.operation.isBus = true) :
    phaseAccepts p i = p.acceptsBus := by
  cases i with
  | rdSelector | wrSelector | rdData | wrData | rdInvalid | wrInvalid => rfl
  | reset | attachNone | attachMedium => cases hbus

theorem exec_of_isBus (i : Instr) (s : State) (hbus : i.operation.isBus = true) (hwf : i.wf = true)
    (hphase : s.phase.acceptsBus = true) : exec i s = .next (effect i s) :=
  (exec_eq_next_iff i s _).2
    ⟨operandsDelivered_of_wf i hwf, (phaseAccepts_of_isBus s.phase i hbus).trans hphase, rfl⟩

/-- Settles O21: a well-formed bus access answers its effect. -/
theorem deliveredBusAccessesComplete : Obligations.DeliveredBusAccessesComplete :=
  fun i s hbus hwf hphase => ⟨effect i s, exec_of_isBus i s hbus hwf hphase⟩

/-- Settles O8: the effect is the response with the selector. -/
theorem rdSelectorReturnsTheSelector : Obligations.RdSelectorReturnsTheSelector :=
  fun size s hmin hmax hphase => exec_of_isBus (.rdSelector size) s rfl (sizeDelivered_of_le hmin hmax) hphase

/-- Settles O9: the read is O8 in the state that the write leaves. -/
theorem wrSelectorReplacesTheSelectorUnchecked : Obligations.WrSelectorReplacesTheSelectorUnchecked :=
  fun size size' value s hmin hmax hmin' hmax' hphase =>
    ⟨exec_of_isBus (.wrSelector size value) s rfl (sizeDelivered_of_le hmin hmax) hphase,
      rdSelectorReturnsTheSelector size' { s with selector := value.setWidth 32 } hmin' hmax' hphase⟩

/-- Settles O11, by the two sides of the bounds check. -/
theorem rdDataReadsTheSelectedFuse : Obligations.RdDataReadsTheSelectedFuse := by
  intro size s hmin hmax hphase
  have hexec : exec (.rdData size) s = .next (readData s) :=
    exec_of_isBus (.rdData size) s rfl (sizeDelivered_of_le hmin hmax) hphase
  refine ⟨fun hin => ?_, fun hout => ?_⟩
  · rw [hexec, readData_of_inBounds s (s.inBounds_iff.2 hin)]
    rfl
  · have hb : s.inBounds = false := s.inBounds_eq_decide.trans (decide_eq_false (Nat.not_lt.2 hout))
    rw [hexec, readData_of_not_inBounds s hb]
    rfl

theorem offsetDecoded_eq_false {offset : Offset} (hsel : offset ≠ 0x000) (hdata : offset ≠ 0x004) :
    offsetDecoded offset = false :=
  Bool.or_eq_false_iff.2 ⟨beq_eq_false_iff_ne.2 hsel, beq_eq_false_iff_ne.2 hdata⟩

/-- Settles O19: such an offset is an operand of RD_INVALID, whose effect is the record and the response. -/
theorem rdInvalidRecordsAndReturnsZero : Obligations.RdInvalidRecordsAndReturnsZero := by
  intro offset size s hsel hdata hmin hmax hphase
  have hwf : (Instr.rdInvalid offset size).wf = true := by
    rw [Instr.wf, offsetDecoded_eq_false hsel hdata, sizeDelivered_of_le hmin hmax]
    rfl
  exact exec_of_isBus (.rdInvalid offset size) s rfl hwf hphase

/-! ### Writes to one fuse accumulate by OR -/

@[simp] theorem writeData_phase (value : BusValue) (s : State) : (writeData value s).phase = s.phase := by
  cases hb : s.inBounds
  · rw [writeData_of_not_inBounds value s hb, State.diagnose_phase]
  · rw [writeData_of_inBounds value s hb, State.writeThrough_phase, State.writeFuse_phase]

@[simp] theorem writeData_selector (value : BusValue) (s : State) : (writeData value s).selector = s.selector := by
  cases hb : s.inBounds
  · rw [writeData_of_not_inBounds value s hb, State.diagnose_selector]
  · rw [writeData_of_inBounds value s hb, State.writeThrough_selector, State.writeFuse_selector]

@[simp] theorem writeData_inBounds (value : BusValue) (s : State) : (writeData value s).inBounds = s.inBounds := by
  simp [State.inBounds]

theorem wf_writeData_fuses (value : BusValue) (s : State) (hwf : Memory.wf s.fuses = true) :
    Memory.wf (writeData value s).fuses = true := by
  cases hb : s.inBounds
  · rwa [writeData_of_not_inBounds value s hb, State.diagnose_fuses]
  · rw [writeData_of_inBounds value s hb, State.writeThrough_fuses, State.writeFuse_fuses]
    exact Memory.wf_write _ _ _ hwf

/-- The word a fuse holds after the values are written to it in turn (R74). -/
def orAll (values : List BusValue) (old : Word) : Word := values.foldl (fun f v => f ||| v.setWidth 32) old

theorem orAll_perm {values values' : List BusValue} (hperm : values.Perm values') (old : Word) :
    orAll values old = orAll values' old :=
  hperm.foldl_eq' (fun _ _ _ _ f => by rw [BitVec.or_assoc, BitVec.or_assoc, BitVec.or_comm (BitVec.setWidth _ _)]) old

/-- In-bounds writes complete one after another: each keeps the phase, the selector, the count and the canonical form,
so the next is in bounds of the same fuse. -/
theorem execAll_wrData {size : Nat} (hsize : sizeDelivered size = true) (values : List BusValue) :
    ∀ s : State, s.phase.acceptsBus = true → Memory.wf s.fuses = true → s.inBounds = true →
      ∃ t, execAll (values.map (Instr.wrData size)) s = .next t ∧ Memory.wf t.fuses = true ∧
        ∀ j, Memory.read t.fuses j =
          if j = s.selector.toNat then orAll values (Memory.read s.fuses j) else Memory.read s.fuses j := by
  induction values with
  | nil => exact fun s _ hwf _ => ⟨s, rfl, hwf, fun j => (ite_self _).symm⟩
  | cons v rest ih =>
    intro s hphase hwf hin
    obtain ⟨t, hrest, hwft, hread⟩ := ih (writeData v s) (by rwa [writeData_phase]) (wf_writeData_fuses v s hwf)
      (by rwa [writeData_inBounds])
    have hfirst : exec (.wrData size v) s = .next (writeData v s) := exec_of_isBus _ s rfl hsize hphase
    refine ⟨t, by rw [List.map_cons, execAll, hfirst]; exact hrest, hwft, fun j => ?_⟩
    rw [hread, writeData_selector, read_writeData_fuses v s j hwf]
    by_cases hj : j = s.selector.toNat
    · rw [if_pos hj, if_pos hj, if_pos ⟨hin, hj⟩]
      rfl
    · rw [if_neg hj, if_neg hj, if_neg (fun h => hj h.2)]

/-- Writing 0 ORs nothing in (R74). -/
theorem writeData_zero_fuses (s : State) (hwf : Memory.wf s.fuses = true) : (writeData 0 s).fuses = s.fuses := by
  refine Memory.eq_of_read_eq (wf_writeData_fuses 0 s hwf) hwf fun j => ?_
  have hzero : Memory.read s.fuses j ||| trunc32 0 = Memory.read s.fuses j := BitVec.or_zero
  rw [read_writeData_fuses 0 s j hwf, hzero, ite_self]

/-- Settles O15: the selected fuse ends as the OR of all values, which no order changes, and canonical arrays that read
alike are equal. -/
theorem writesAccumulateByOr : Obligations.WritesAccumulateByOr := by
  intro size s hmin hmax hphase hwf hsel
  have hsize := sizeDelivered_of_le hmin hmax
  have hwrites := fun values => execAll_wrData hsize values s hphase hwf (s.inBounds_iff.2 hsel)
  refine ⟨fun values => ?_, fun values values' t t' hperm hrun hrun' => ?_, ?_⟩
  · obtain ⟨t, hrun, _, hread⟩ := hwrites values
    exact ⟨t, hrun, (hread _).trans (if_pos rfl), fun j hj => (hread j).trans (if_neg hj)⟩
  · obtain ⟨u, hu, hwfu, hread⟩ := hwrites values
    obtain ⟨u', hu', hwfu', hread'⟩ := hwrites values'
    cases hrun.symm.trans hu
    cases hrun'.symm.trans hu'
    exact Memory.eq_of_read_eq hwfu hwfu' fun j => by rw [hread, hread', orAll_perm hperm]
  · exact ⟨writeData 0 s, exec_of_isBus (.wrData size 0) s rfl hsize hphase, writeData_zero_fuses s hwf⟩

end Sys2Proof.Machine
end

section
/-! PROOFS. The diagnostic output: what a faulty access leaves, and that no operation reads it (spec/60_exceptions.md
R106, R107, R112, R113). -/

namespace Sys2Proof.Machine

/-! ### The record of an operation -/

theorem expectedRecord_rdData (size : Nat) (s : State) :
    expectedRecord s (.rdData size) = if s.inBounds = true then none else some (.outOfBoundsRead s.selector) := by
  simp only [expectedRecord, s.inBounds_iff]

theorem expectedRecord_wrData (size : Nat) (value : BusValue) (s : State) :
    expectedRecord s (.wrData size value) =
      if s.inBounds = true then none else some (.outOfBoundsWrite s.selector value) := by
  simp only [expectedRecord, s.inBounds_iff]

theorem expectedCategories_eq_map_expectedRecord (s : State) (i : Instr) :
    expectedCategories s i = (expectedRecord s i).toList.map Diagnostic.category := by
  cases i with
  | rdData | wrData =>
    rw [expectedCategories, expectedRecord]
    split <;> rfl
  | rdSelector | wrSelector | rdInvalid | wrInvalid | reset | attachNone | attachMedium => rfl

theorem isBus_of_expectedRecord_eq_some {i : Instr} {s : State} {d : Diagnostic} (hd : expectedRecord s i = some d) :
    i.operation.isBus = true := by
  cases i with
  | rdSelector | wrSelector | rdData | wrData | rdInvalid | wrInvalid => rfl
  | reset | attachNone | attachMedium => cases hd

/-! ### A faulty access -/

/-- Past its record and a read's 0, a faulty access leaves the state as it was (R113). -/
theorem effect_of_expectedRecord_eq_some {i : Instr} {s : State} {d : Diagnostic}
    (hd : expectedRecord s i = some d) :
    effect i s =
      { s with
        diagnostics := s.diagnostics ++ [d]
        readResults := if i.operation.isRead = true then s.readResults ++ [0] else s.readResults } := by
  cases i with
  | rdData size =>
    rw [expectedRecord_rdData] at hd
    split at hd
    · cases hd
    next hout =>
      cases hd
      exact readData_of_not_inBounds s (Bool.eq_false_of_not_eq_true hout)
  | wrData size value =>
    rw [expectedRecord_wrData] at hd
    split at hd
    · cases hd
    next hout =>
      cases hd
      exact writeData_of_not_inBounds value s (Bool.eq_false_of_not_eq_true hout)
  | rdInvalid | wrInvalid =>
    cases hd
    rfl
  | rdSelector | wrSelector | reset | attachNone | attachMedium => cases hd

/-- Settles O30: a category is expected exactly where a record is, and such an access answers its effect. -/
theorem aFaultyAccessOnlyAddsARecord : Obligations.AFaultyAccessOnlyAddsARecord := by
  intro i s hwf hphase hfaulty
  cases hd : expectedRecord s i with
  | none => exact absurd (by rw [expectedCategories_eq_map_expectedRecord, hd]; rfl) hfaulty
  | some d =>
    exact ⟨d, (exec_of_isBus i s (isBus_of_expectedRecord_eq_some hd) hwf hphase).trans
      (congrArg _ (effect_of_expectedRecord_eq_some hd))⟩

/-! ### No operation reads the diagnostic output -/

theorem State.writeThrough_with_diagnostics (s : State) (j : Nat) (old : List Diagnostic) :
    State.writeThrough { s with diagnostics := old } j = { s.writeThrough j with diagnostics := old } := by
  by_cases hblocked : s.backing = none ∨ s.readOnly = true
  · rw [s.writeThrough_of_not_writable j hblocked]
    exact State.writeThrough_of_not_writable _ j hblocked
  · obtain ⟨hbacking, hwritable⟩ := not_or.1 hblocked
    obtain ⟨m, hm⟩ := Option.ne_none_iff_exists'.1 hbacking
    have hr := Bool.eq_false_of_not_eq_true hwritable
    rw [s.writeThrough_of_writable j m hm hr]
    exact State.writeThrough_of_writable _ j m hm hr

theorem resetController_with_diagnostics (s : State) (old : List Diagnostic) :
    resetController { s with diagnostics := old } = { resetController s with diagnostics := old } := by
  obtain hm | ⟨m, hm⟩ := Option.eq_none_or_eq_some s.backing
  · rw [resetController_of_backing_none s hm]
    exact resetController_of_backing_none _ hm
  · rw [resetController_of_backing_some s m hm]
    exact resetController_of_backing_some _ m hm

/-- None of the attach's checks looks at the controller's state. -/
theorem attachWithMedium_with_diagnostics (m : Medium) (s : State) (old : List Diagnostic) :
    attachWithMedium m { s with diagnostics := old } = { attachWithMedium m s with diagnostics := old } := by
  rw [attachWithMedium_eq, attachWithMedium_eq]
  split_ifs <;> rfl

theorem effect_with_diagnostics_of_expectedRecord_eq_none {i : Instr} {s : State} (hd : expectedRecord s i = none)
    (old : List Diagnostic) :
    effect i { s with diagnostics := old } = { effect i s with diagnostics := old } := by
  cases i with
  | rdSelector | wrSelector | attachNone => rfl
  | rdData size =>
    rw [expectedRecord_rdData] at hd
    split at hd
    next hin =>
      rw [effect, effect, readData_of_inBounds s hin]
      exact readData_of_inBounds _ hin
    · cases hd
  | wrData size value =>
    rw [expectedRecord_wrData] at hd
    split at hd
    next hin =>
      rw [effect, effect, writeData_of_inBounds value s hin, ← State.writeThrough_with_diagnostics]
      exact writeData_of_inBounds value _ hin
    · cases hd
  | rdInvalid | wrInvalid => cases hd
  | reset => exact resetController_with_diagnostics s old
  | attachMedium m => exact attachWithMedium_with_diagnostics m s old

/-- From any diagnostic list an operation has the same effect, with the same record at the end (R107, R112). -/
theorem effect_with_diagnostics (i : Instr) (s : State) (old : List Diagnostic) :
    effect i { s with diagnostics := old } =
      { effect i s with diagnostics := old ++ (expectedRecord s i).toList } := by
  cases hd : expectedRecord s i with
  | none =>
    rw [effect_with_diagnostics_of_expectedRecord_eq_none hd, Option.toList_none, List.append_nil]
  | some d =>
    have hd' : expectedRecord { s with diagnostics := old } i = some d := hd
    rw [effect_of_expectedRecord_eq_some hd, effect_of_expectedRecord_eq_some hd', Option.toList_some]

theorem effect_diagnostics (i : Instr) (s : State) :
    (effect i s).diagnostics = s.diagnostics ++ (expectedRecord s i).toList :=
  congrArg State.diagnostics (effect_with_diagnostics i s s.diagnostics)

/-- Settles O28: the appended records are the expected one, if any, from every diagnostic list. -/
theorem diagnosticsAreAppendedAndNeverRead : Obligations.DiagnosticsAreAppendedAndNeverRead := by
  intro i s t hexec
  obtain ⟨hoperands, haccepts, rfl⟩ := (exec_eq_next_iff i s t).1 hexec
  exact ⟨_, effect_diagnostics i s, (expectedCategories_eq_map_expectedRecord s i).symm, fun old =>
    (exec_eq_next_iff i _ _).2 ⟨hoperands, haccepts, (effect_with_diagnostics i s old).symm⟩⟩

end Sys2Proof.Machine
end

section
/-! PROOFS. The decoder on whole stimuli, and the step around it (spec/30_encoding.md R53, R55, R57, R58, R60). -/

namespace Sys2Proof

/-! ### The operation, with the operands delivered beside the word -/

/-- The operation with the operands its row of R57's table takes from the stimulus. -/
def Operation.withOperands (t : Stimulus) : Operation → Instr
  | .rdSelector => .rdSelector t.size
  | .wrSelector => .wrSelector t.size t.value
  | .rdData => .rdData t.size
  | .wrData => .wrData t.size t.value
  | .rdInvalid => .rdInvalid (offsetField t.word) t.size
  | .wrInvalid => .wrInvalid (offsetField t.word) t.size t.value
  | .reset => .reset
  | .attachNone => .attachNone
  | .attachMedium => .attachMedium t.medium

theorem decode_of_decodeOperation_eq_some {t : Stimulus} {op : Operation} (h : decodeOperation t.word = some op) :
    decode t = .ok (op.withOperands t) := by
  unfold decode
  rw [h]
  cases op <;> rfl

theorem decode_of_decodeOperation_eq_none {t : Stimulus} (h : decodeOperation t.word = none) :
    decode t = .error .reservedKind := by
  unfold decode
  rw [h]

theorem decode_eq_ok_iff (t : Stimulus) (i : Instr) :
    decode t = .ok i ↔ ∃ op, decodeOperation t.word = some op ∧ op.withOperands t = i := by
  cases h : decodeOperation t.word with
  | none => simp [decode_of_decodeOperation_eq_none h]
  | some op => simp [decode_of_decodeOperation_eq_some h]

/-- Words of kind `11`, from 0x6000 up, name no operation (R60). -/
theorem decode_of_reserved {t : Stimulus} (h : 0x6000 ≤ t.word.toNat) : decode t = .error .reservedKind :=
  decode_of_decodeOperation_eq_none ((decodeOperation_eq_none_iff t.word).2 h)

/-- An attach that is decoded carries the medium delivered beside its word. -/
theorem medium_of_decode_eq_attachMedium {t : Stimulus} {m : Medium} (h : decode t = .ok (.attachMedium m)) :
    m = t.medium := by
  obtain ⟨op, _, hop⟩ := (decode_eq_ok_iff t _).1 h
  cases op with
  | attachMedium => exact (Instr.attachMedium.inj hop).symm
  | rdSelector | wrSelector | rdData | wrData | rdInvalid | wrInvalid | reset | attachNone => cases hop

/-! ### Decoding after encoding -/

theorem decodeOperation_encode (i : Instr) (h : i.wf = true) : decodeOperation (encode i).word = some i.operation := by
  cases i with
  | rdSelector size => exact Laws.EncodedWord.rdSelector size h
  | wrSelector size value => exact Laws.EncodedWord.wrSelector size value h
  | rdData size => exact Laws.EncodedWord.rdData size h
  | wrData size value => exact Laws.EncodedWord.wrData size value h
  | rdInvalid offset size => exact Laws.EncodedWord.rdInvalid offset size h
  | wrInvalid offset size value => exact Laws.EncodedWord.wrInvalid offset size value h
  | reset => exact Laws.EncodedWord.reset h
  | attachNone => exact Laws.EncodedWord.attachNone h
  | attachMedium medium => exact Laws.EncodedWord.attachMedium medium h

/-- The encoder keeps every operand: in the offset field, or beside the word. -/
theorem withOperands_encode (i : Instr) : i.operation.withOperands (encode i) = i := by
  cases i with
  | rdInvalid offset size => exact congrArg (Instr.rdInvalid · size) (offsetField_stimulusWord 0 0 offset)
  | wrInvalid offset size value => exact congrArg (Instr.wrInvalid · size value) (offsetField_stimulusWord 0 1 offset)
  | rdSelector | wrSelector | rdData | wrData | reset | attachNone | attachMedium => rfl

/-- Settles O1: the encoded word selects the operation, and the stimulus holds its operands. -/
theorem decodeOfEncodeIsTheOperation : Obligations.DecodeOfEncodeIsTheOperation := fun i hwf =>
  (decode_of_decodeOperation_eq_some (decodeOperation_encode i hwf)).trans (congrArg _ (withOperands_encode i))

/-! ### Which words decode, and to what -/

/-- Settles O3: the two sides of `decodeOperation_eq_none_iff`. -/
theorem onlyTheReservedKindIsRejected : Obligations.OnlyTheReservedKindIsRejected := by
  refine fun t => ⟨decode_of_reserved, fun hlt => ?_⟩
  have hsome : decodeOperation t.word ≠ none := fun hnone =>
    Nat.not_le.2 hlt ((decodeOperation_eq_none_iff t.word).1 hnone)
  obtain ⟨op, hop⟩ := Option.ne_none_iff_exists'.1 hsome
  exact ⟨_, decode_of_decodeOperation_eq_some hop⟩

/-- A word with the number of a bus word is that bus word. -/
theorem eq_busWord_of_toNat {w : StimulusWord} {d : BitVec 1} {o : Offset}
    (h : w.toNat = 0x1000 * d.toNat + o.toNat) : w = busWord d o :=
  BitVec.eq_of_toNat_eq (h.trans ((toNat_stimulusWord 0 d o).trans (by simp)).symm)

@[simp] theorem offsetField_busWord (d : BitVec 1) (o : Offset) : offsetField (busWord d o) = o :=
  offsetField_stimulusWord 0 d o

theorem decode_of_readWord {t : Stimulus} {o : Offset} (hw : t.word = busWord 0 o) :
    decode t = .ok (if o = 0x000 then .rdSelector t.size
      else if o = 0x004 then .rdData t.size else .rdInvalid o t.size) := by
  rw [decode_of_decodeOperation_eq_some ((congrArg _ hw).trans (decodeOperation_stimulusWord 0 0 o))]
  split_ifs <;> simp [Operation.withOperands, hw]

theorem decode_of_writeWord {t : Stimulus} {o : Offset} (hw : t.word = busWord 1 o) :
    decode t = .ok (if o = 0x000 then .wrSelector t.size t.value
      else if o = 0x004 then .wrData t.size t.value else .wrInvalid o t.size t.value) := by
  rw [decode_of_decodeOperation_eq_some ((congrArg _ hw).trans (decodeOperation_stimulusWord 0 1 o))]
  split_ifs <;> simp [Operation.withOperands, hw]

/-- Settles O4: such a word is the read or the write word of its offset. -/
theorem busWordsDecodeByTheWholeOffset : Obligations.BusWordsDecodeByTheWholeOffset := fun _ _ =>
  ⟨fun h => decode_of_readWord (eq_busWord_of_toNat (h.trans (Nat.zero_add _).symm)),
    fun h => decode_of_writeWord (eq_busWord_of_toNat h)⟩

/-- Settles O2: each is a fixed word, read by R57's table. -/
theorem specWordsDecodeAsListed : Obligations.SpecWordsDecodeAsListed := by
  unfold Obligations.SpecWordsDecodeAsListed
  decide

end Sys2Proof

namespace Sys2Proof.Machine

/-! ### The step around the decoder -/

/-- Settles O5: what `step` does where a stimulus is pending and decodes. -/
theorem stepRunsTheDecodedStimulus : Obligations.StepRunsTheDecodedStimulus := by
  intro s t rest i hpending hdecode
  simp only [step, hpending, hdecode]

/-- Settles O6: with nothing pending there is no word, and a word of kind `11` decodes to the one error. -/
theorem stepRefusesNothingPendingAndReservedWords : Obligations.StepRefusesNothingPendingAndReservedWords := by
  refine fun s => ⟨fun hpending => ?_, fun t rest hpending hreserved => ?_⟩
  · simp only [step, hpending]
  · simp only [step, hpending, decode_of_reserved hreserved]

end Sys2Proof.Machine
end

section
/-! PROOFS. What each operation leaves as it was, what a read answers, and when an access is refused
(spec/10_state.md R15, spec/20_memory.md R34, R36 to R38, R45, R46, spec/40_register_access.md R70, R73,
spec/60_exceptions.md R107 to R110). -/

namespace Sys2Proof.Machine

/-! ### The three ways WR_DATA ends -/

/-- The state with the value ORed into the selected fuse. -/
def blown (value : BusValue) (s : State) : State :=
  s.writeFuse s.selector.toNat (s.readFuse s.selector.toNat ||| trunc32 value)

/-- That state with its selected fuse written through to the medium. -/
def writtenThrough (value : BusValue) (s : State) (m : Medium) : State :=
  { blown value s with
    mediumCalls := s.mediumCalls ++
      [.writeAt (byteOffset s.selector.toNat) (le32 ((blown value s).readFuse s.selector.toNat)) m.nextOk]
    backing := some
      (m.writeAt (byteOffset s.selector.toNat) (le32 ((blown value s).readFuse s.selector.toNat))) }

theorem readFuse_blown_selector (value : BusValue) (s : State) (hwf : Memory.wf s.fuses = true) :
    (blown value s).readFuse s.selector.toNat = s.readFuse s.selector.toNat ||| trunc32 value :=
  Memory.read_write_same s.fuses _ _ hwf

theorem readFuse_blown_other (value : BusValue) (s : State) {j : Nat} (hj : j ≠ s.selector.toNat)
    (hwf : Memory.wf s.fuses = true) : (blown value s).readFuse j = s.readFuse j :=
  Memory.read_write_other s.fuses _ hj hwf

theorem writeData_of_not_writable (value : BusValue) {s : State} (hin : s.inBounds = true)
    (h : s.backing = none ∨ s.readOnly = true) : writeData value s = blown value s :=
  (writeData_of_inBounds value s hin).trans ((blown value s).writeThrough_of_not_writable _ h)

theorem writeData_of_writable (value : BusValue) {s : State} {m : Medium} (hin : s.inBounds = true)
    (hm : s.backing = some m) (hr : s.readOnly = false) : writeData value s = writtenThrough value s m :=
  (writeData_of_inBounds value s hin).trans ((blown value s).writeThrough_of_writable _ m hm hr)

/-- WR_DATA records, or blows the fuse, or blows it and writes it through (R70, R73). -/
theorem writeData_cases (value : BusValue) (s : State) :
    (s.inBounds = false ∧ writeData value s = s.diagnose (.outOfBoundsWrite s.selector value)) ∨
    (s.inBounds = true ∧ (s.backing = none ∨ s.readOnly = true) ∧ writeData value s = blown value s) ∨
    (∃ m, s.inBounds = true ∧ s.backing = some m ∧ s.readOnly = false ∧
      writeData value s = writtenThrough value s m) := by
  cases hin : s.inBounds with
  | false => exact .inl ⟨rfl, writeData_of_not_inBounds value s hin⟩
  | true =>
    obtain hm | ⟨m, hm⟩ := Option.eq_none_or_eq_some s.backing
    · exact .inr (.inl ⟨rfl, .inl hm, writeData_of_not_writable value hin (.inl hm)⟩)
    · cases hr : s.readOnly with
      | true => exact .inr (.inl ⟨rfl, .inr rfl, writeData_of_not_writable value hin (.inr hr)⟩)
      | false => exact .inr (.inr ⟨m, rfl, hm, rfl, writeData_of_writable value hin hm hr⟩)

/-! ### Frames: an operation as an update of the fields it may change -/

/-- WR_DATA touches the array, the medium, the calls and the diagnostics only. -/
theorem writeData_frame (value : BusValue) (s : State) :
    writeData value s =
      { s with
        fuses := (writeData value s).fuses
        backing := (writeData value s).backing
        mediumCalls := (writeData value s).mediumCalls
        diagnostics := (writeData value s).diagnostics } := by
  rcases writeData_cases value s with ⟨_, heq⟩ | ⟨_, _, heq⟩ | ⟨m, _, _, _, heq⟩ <;> rw [heq] <;> rfl

@[simp] theorem writeData_readOnly (value : BusValue) (s : State) : (writeData value s).readOnly = s.readOnly := by
  rw [writeData_frame]

@[simp] theorem writeData_readResults (value : BusValue) (s : State) :
    (writeData value s).readResults = s.readResults := by
  rw [writeData_frame]

/-- The value a read returns (R67, R69, R71); none for the other operations. -/
def readValue (s : State) : Instr → Option BusValue
  | .rdSelector _ => some (zext64 s.selector)
  | .rdData _ => some (if s.inBounds then zext64 (s.readFuse s.selector.toNat) else 0)
  | .rdInvalid _ _ => some 0
  | .wrSelector _ _ => none
  | .wrData _ _ => none
  | .wrInvalid _ _ _ => none
  | .reset => none
  | .attachNone => none
  | .attachMedium _ => none

/-- A read appends its record, if any, and its value, and does nothing else (R38). -/
theorem effect_of_isRead {i : Instr} (s : State) (hread : i.operation.isRead = true) :
    effect i s =
      { s with
        diagnostics := s.diagnostics ++ (expectedRecord s i).toList
        readResults := s.readResults ++ (readValue s i).toList } := by
  cases i with
  | rdSelector size => simp [effect, State.respond, expectedRecord, readValue]
  | rdInvalid offset size => rfl
  | rdData size =>
    rw [effect, expectedRecord_rdData]
    cases hb : s.inBounds with
    | true => simp [readData_of_inBounds s hb, readValue, hb, State.respond]
    | false => simp [readData_of_not_inBounds s hb, readValue, hb, State.diagnose, State.respond]
  | wrSelector | wrData | wrInvalid | reset | attachNone | attachMedium => cases hread

/-- A bus access leaves the phase, the count, `read_only`, the attach result and the pending stimuli. -/
theorem effect_frame_of_isBus {i : Instr} (s : State) (hbus : i.operation.isBus = true) :
    effect i s =
      { s with
        selector := (effect i s).selector
        fuses := (effect i s).fuses
        backing := (effect i s).backing
        mediumCalls := (effect i s).mediumCalls
        diagnostics := (effect i s).diagnostics
        readResults := (effect i s).readResults } := by
  cases i with
  | rdData size =>
    rw [effect_of_isRead s rfl]
  | wrData size value =>
    rw [effect, writeData_frame]
  | rdSelector | wrSelector | rdInvalid | wrInvalid => rfl
  | reset | attachNone | attachMedium => cases hbus

theorem effect_phase_of_isBus {i : Instr} (s : State) (hbus : i.operation.isBus = true) :
    (effect i s).phase = s.phase := by
  rw [effect_frame_of_isBus s hbus]

theorem effect_readOnly_of_isBus {i : Instr} (s : State) (hbus : i.operation.isBus = true) :
    (effect i s).readOnly = s.readOnly := by
  rw [effect_frame_of_isBus s hbus]

/-- RESET touches the phase, the array and the count only (R97). -/
theorem resetController_frame (s : State) :
    resetController s =
      { s with
        phase := (resetController s).phase
        fuses := (resetController s).fuses
        validCount := (resetController s).validCount } := by
  obtain hb | ⟨m, hb⟩ := Option.eq_none_or_eq_some s.backing
  · rw [resetController_of_backing_none s hb]
  · rw [resetController_of_backing_some s m hb]

@[simp] theorem resetController_readResults (s : State) : (resetController s).readResults = s.readResults := by
  rw [resetController_frame]

/-! ### The pending stimuli -/

theorem effect_pending (i : Instr) (s : State) : (effect i s).pending = s.pending := by
  cases i with
  | rdSelector | wrSelector | rdData | wrData | rdInvalid | wrInvalid =>
    rw [effect_frame_of_isBus s rfl]
  | reset => rw [effect, resetController_frame]
  | attachNone => rfl
  | attachMedium m =>
    obtain ⟨_, _, _, hpending, _⟩ := attachWithMedium_frame m s
    exact hpending

/-- Settles O7: `step` takes the head off the list and no operation touches the rest. -/
theorem aStepConsumesOneStimulus : Obligations.AStepConsumesOneStimulus := by
  intro s u hstep
  obtain ⟨t, rest, i, hpending, _, hexec⟩ := (step_eq_next_iff s u).1 hstep
  obtain ⟨_, _, rfl⟩ := (exec_eq_next_iff i _ u).1 hexec
  exact ⟨t, by rw [hpending, effect_pending]⟩

/-! ### The selector -/

theorem effect_selector {i : Instr} (s : State) (hi : ∀ size value, i ≠ .wrSelector size value) :
    (effect i s).selector = s.selector := by
  cases i with
  | wrSelector size value => exact absurd rfl (hi size value)
  | rdSelector | rdData | rdInvalid => rw [effect_of_isRead s rfl]
  | wrData size value => exact writeData_selector value s
  | wrInvalid | attachNone => rfl
  | reset => rw [effect, resetController_frame]
  | attachMedium m =>
    obtain ⟨hselector, _⟩ := attachWithMedium_frame m s
    exact hselector

/-- Settles O10: WR_SELECTOR stores its value, and `effect_selector` is the rest. -/
theorem onlyWrSelectorChangesTheSelector : Obligations.OnlyWrSelectorChangesTheSelector := by
  intro i s t hexec
  obtain ⟨_, _, rfl⟩ := (exec_eq_next_iff i s t).1 hexec
  exact ⟨by rintro size value rfl; rfl, effect_selector s⟩

/-! ### The read results -/

theorem effect_readResults (i : Instr) (s : State) :
    (effect i s).readResults = s.readResults ++ (readValue s i).toList := by
  cases i with
  | rdSelector | rdData | rdInvalid => rw [effect_of_isRead s rfl]
  | wrSelector | wrInvalid | attachNone => exact (List.append_nil _).symm
  | wrData size value => exact (writeData_readResults value s).trans (List.append_nil _).symm
  | reset => exact (resetController_readResults s).trans (List.append_nil _).symm
  | attachMedium m =>
    obtain ⟨_, hresults, _⟩ := attachWithMedium_frame m s
    exact hresults.trans (List.append_nil _).symm

theorem exists_readValue {i : Instr} (s : State) (hread : i.operation.isRead = true) :
    ∃ r, readValue s i = some r := by
  cases i with
  | rdSelector | rdData | rdInvalid => exact ⟨_, rfl⟩
  | wrSelector | wrData | wrInvalid | reset | attachNone | attachMedium => cases hread

/-- Every read result is a zero-extended word. -/
theorem eq_zext64_of_readValue {i : Instr} {s : State} {r : BusValue} (h : readValue s i = some r) :
    ∃ w, r = zext64 w := by
  cases i with
  | rdSelector size => exact ⟨s.selector, (Option.some.inj h).symm⟩
  | rdInvalid offset size => exact ⟨0, (Option.some.inj h).symm⟩
  | rdData size =>
    rw [readValue] at h
    split at h
    · exact ⟨_, (Option.some.inj h).symm⟩
    · exact ⟨0, (Option.some.inj h).symm⟩
  | wrSelector | wrData | wrInvalid | reset | attachNone | attachMedium => cases h

/-- Four bytes hold a word, so an initiator that asked for at least four sees all of it (R34). -/
theorem initiatorView_zext64 {size : Nat} (hmin : 4 ≤ size) (w : Word) :
    initiatorView size (zext64 w) = zext64 w := by
  apply BitVec.eq_of_toNat_eq
  have hword : w.toNat < 2 ^ (8 * size) := w.isLt.trans_le (Nat.pow_le_pow_right (by decide) (by omega))
  simp [initiatorView, zext64, Nat.mod_eq_of_lt hword]

/-- Settles O26: the result is a zero-extended word. -/
theorem theInitiatorSeesTheWholeResult : Obligations.TheInitiatorSeesTheWholeResult := by
  intro i s t size r hmin _ hexec hresult
  obtain ⟨_, _, rfl⟩ := (exec_eq_next_iff i s t).1 hexec
  have hlist : (readValue s i).toList = [r] :=
    List.append_cancel_left ((effect_readResults i s).symm.trans hresult)
  obtain ⟨w, rfl⟩ := eq_zext64_of_readValue (Option.toList_eq_singleton_iff.1 hlist)
  exact initiatorView_zext64 hmin w

/-- Settles O24: a read appends to two output lists, and neither list decides the value of the next read. -/
theorem readsChangeNoElementAndRepeat : Obligations.ReadsChangeNoElementAndRepeat := by
  intro i s t hread hexec
  obtain ⟨hoperands, haccepts, rfl⟩ := (exec_eq_next_iff i s t).1 hexec
  obtain ⟨r, hr⟩ := exists_readValue s hread
  have heffect := effect_of_isRead s hread
  have hphase : (effect i s).phase = s.phase := by rw [heffect]
  have hrepeat : readValue (effect i s) i = some r := by
    rw [← hr, heffect]
    cases i <;> rfl
  refine ⟨?_, by rw [heffect], by rw [heffect],
    by rw [heffect], by rw [heffect], r, (expectedRecord s i).toList,
    by rw [effect_readResults, hr]; rfl, effect_diagnostics i s, Option.length_toList_le, effect i (effect i s),
    (exec_eq_next_iff i _ _).2 ⟨hoperands, hphase ▸ haccepts, rfl⟩, by rw [effect_readResults, hrepeat]; rfl⟩
  rw [heffect]
  exact ⟨rfl, rfl, rfl, rfl, rfl, rfl⟩

/-! ### Records -/

/-- Settles O29: `effect_diagnostics`, for an operation that completes. -/
theorem recordsCarryTheirPayload : Obligations.RecordsCarryTheirPayload := by
  intro i s t hexec
  obtain ⟨_, _, rfl⟩ := (exec_eq_next_iff i s t).1 hexec
  exact effect_diagnostics i s

/-- Settles O13: the side of the bounds check on which WR_DATA only records. -/
theorem wrDataOutOfBoundsOnlyRecords : Obligations.WrDataOutOfBoundsOnlyRecords := by
  intro size value s hmin hmax hphase hout
  have hb : s.inBounds = false := s.inBounds_eq_decide.trans (decide_eq_false (Nat.not_lt.2 hout))
  have hexec := exec_of_isBus (.wrData size value) s rfl (sizeDelivered_of_le hmin hmax) hphase
  rwa [effect, writeData_of_not_inBounds value s hb] at hexec

/-- Settles O20: such an offset is an operand of WR_INVALID, whose effect is the record. -/
theorem wrInvalidOnlyRecords : Obligations.WrInvalidOnlyRecords := by
  intro offset size value s hsel hdata hmin hmax hphase
  have hwf : (Instr.wrInvalid offset size value).wf = true := by
    rw [Instr.wf, offsetDecoded_eq_false hsel hdata, sizeDelivered_of_le hmin hmax]
    rfl
  exact exec_of_isBus (.wrInvalid offset size value) s rfl hwf hphase

/-! ### The access size -/

theorem sizeDelivered_eq_false {size : Nat} (h : size < 4 ∨ 8 < size) : sizeDelivered size = false := by
  rw [sizeDelivered, Bool.and_eq_false_iff]
  exact h.imp (fun hlow => decide_eq_false (Nat.not_le.2 hlow)) (fun hhigh => decide_eq_false (Nat.not_le.2 hhigh))

theorem busAccess_of_not_delivered {size : Nat} (h : sizeDelivered size = false) (s : State) (f : State → State) :
    busAccess size s f = .refused (.sizeNotDelivered size) := by
  simp [busAccess, h]

theorem undecodedAccess_of_not_decoded {offset : Offset} (h : offsetDecoded offset = false) (size : Nat) (s : State)
    (f : State → State) : undecodedAccess offset size s f = busAccess size s f := by
  simp [undecodedAccess, h]

theorem undecodedAccess_of_decoded {offset : Offset} (h : offsetDecoded offset = true) (size : Nat) (s : State)
    (f : State → State) : undecodedAccess offset size s f = .refused (.offsetIsDecoded offset) := by
  simp [undecodedAccess, h]

/-- Settles O22: the two checks an access must pass before the phase is asked. -/
theorem undeliveredAccessesAreRefused : Obligations.UndeliveredAccessesAreRefused := by
  refine fun size value offset s => ⟨fun hsize => ?_, fun hoffset => ?_⟩
  · have hbus := busAccess_of_not_delivered (sizeDelivered_eq_false hsize) s
    refine ⟨hbus (effect (.rdSelector size)), hbus (effect (.wrSelector size value)), hbus _, hbus _,
      fun hsel hdata => ?_⟩
    have hundecoded := undecodedAccess_of_not_decoded (offsetDecoded_eq_false hsel hdata) size s
    exact ⟨(hundecoded _).trans (hbus _), (hundecoded _).trans (hbus _)⟩
  · have hdecoded : offsetDecoded offset = true := by
      rcases hoffset with rfl | rfl <;> decide
    exact ⟨undecodedAccess_of_decoded hdecoded size s _, undecodedAccess_of_decoded hdecoded size s _⟩

theorem busAccess_congr_size {n n' : Nat} (h : sizeDelivered n = true) (h' : sizeDelivered n' = true) (s : State)
    (f : State → State) : busAccess n s f = busAccess n' s f := by
  simp [busAccess, h, h']

/-- Settles O23: past the check of the size nothing looks at it. -/
theorem theSizeMakesNoDifference : Obligations.TheSizeMakesNoDifference := by
  intro n n' value offset s hmin hmax hmin' hmax'
  have hbus := busAccess_congr_size (sizeDelivered_of_le hmin hmax) (sizeDelivered_of_le hmin' hmax') s
  have hundecoded : ∀ f, undecodedAccess offset n s f = undecodedAccess offset n' s f := fun f => by
    rw [undecodedAccess, undecodedAccess, hbus f]
  exact ⟨hbus (effect (.rdSelector n)), hbus (effect (.wrSelector n value)), hbus _, hbus _, hundecoded _, hundecoded _⟩

/-! ### A bus write repeated -/

/-- WR_DATA neither attaches nor detaches a medium. -/
theorem writeData_backing_isSome (value : BusValue) (s : State) :
    (writeData value s).backing.isSome = s.backing.isSome := by
  rcases writeData_cases value s with ⟨_, heq⟩ | ⟨_, _, heq⟩ | ⟨m, _, hm, _, heq⟩
  · rw [heq]
    rfl
  · rw [heq]
    rfl
  · rw [heq, hm]
    rfl

theorem effect_backing_isSome_of_isBus {i : Instr} (s : State) (hbus : i.operation.isBus = true) :
    (effect i s).backing.isSome = s.backing.isSome := by
  cases i with
  | rdSelector | rdData | rdInvalid => rw [effect_of_isRead s rfl]
  | wrData size value => exact writeData_backing_isSome value s
  | wrSelector | wrInvalid => rfl
  | reset | attachNone | attachMedium => cases hbus

/-- ORing the same value in again changes no word. -/
theorem writeData_writeData_fuses (value : BusValue) (s : State) (hwf : Memory.wf s.fuses = true) :
    (writeData value (writeData value s)).fuses = (writeData value s).fuses := by
  have hwf' := wf_writeData_fuses value s hwf
  refine Memory.eq_of_read_eq (wf_writeData_fuses value _ hwf') hwf' fun j => ?_
  rw [read_writeData_fuses value _ j hwf', read_writeData_fuses value s j hwf, writeData_inBounds, writeData_selector]
  split
  · rw [BitVec.or_assoc, BitVec.or_self]
  · rfl

/-- Settles O25: WR_SELECTOR stores the same value again, WR_DATA ORs it in again, and WR_INVALID stores nothing. -/
theorem repeatedBusWritesAreIdempotent : Obligations.RepeatedBusWritesAreIdempotent := by
  intro i s t hwf hbus hwrite hexec
  obtain ⟨hoperands, haccepts, rfl⟩ := (exec_eq_next_iff i s t).1 hexec
  refine ⟨effect i (effect i s), (exec_eq_next_iff i _ _).2
      ⟨hoperands, (effect_phase_of_isBus s hbus).symm ▸ haccepts, rfl⟩,
    effect_phase_of_isBus _ hbus, ?_, ?_, effect_validCount_of_isBus i _ hbus, effect_readOnly_of_isBus _ hbus,
    effect_backing_isSome_of_isBus _ hbus⟩
  · cases i with
    | wrSelector size value => rfl
    | rdSelector | rdData | wrData | rdInvalid | wrInvalid | reset | attachNone | attachMedium =>
      exact effect_selector _ nofun
  · cases i with
    | wrSelector | wrInvalid => rfl
    | wrData size value => exact writeData_writeData_fuses value s hwf
    | rdSelector | rdData | rdInvalid => cases hwrite
    | reset | attachNone | attachMedium => cases hbus

/-! ### Blow, then sense -/

theorem execAll_cons_of_next {i : Instr} {s t : State} (h : exec i s = .next t) (rest : List Instr) :
    execAll (i :: rest) s = execAll rest t := by
  simp only [execAll, h]

theorem trunc32_setWidth (w : Word) : trunc32 (w.setWidth 64) = w := by
  simp [trunc32]

/-- The first stimulus of `blow` and of `sense` selects the fuse. -/
theorem exec_select (k : Word) {s : State} (hphase : s.phase.acceptsBus = true) :
    exec (.wrSelector Config.sizeMin (k.setWidth 64)) s = .next (s.setSelector k) := by
  rw [exec_of_isBus _ s rfl rfl hphase, effect, trunc32_setWidth]

/-- `blow` and then `sense` of one fuse run as two writes of the selector, a write and a read of DATA (R64). -/
theorem execAll_blow_sense (k : Word) (value : BusValue) {s : State} (hphase : s.phase.acceptsBus = true) :
    execAll (blow k value ++ sense k) s =
      .next (readData ((writeData value (s.setSelector k)).setSelector k)) := by
  have hwritten : (writeData value (s.setSelector k)).phase.acceptsBus = true := by
    rwa [writeData_phase, State.setSelector_phase]
  have hreselected : ((writeData value (s.setSelector k)).setSelector k).phase.acceptsBus = true := hwritten
  calc execAll (blow k value ++ sense k) s
      = execAll (.wrData Config.sizeMin value :: sense k) (s.setSelector k) :=
        execAll_cons_of_next (exec_select k hphase) _
    _ = execAll (sense k) (writeData value (s.setSelector k)) :=
        execAll_cons_of_next (exec_of_isBus (.wrData Config.sizeMin value) (s.setSelector k) rfl rfl hphase) _
    _ = execAll [.rdData Config.sizeMin] ((writeData value (s.setSelector k)).setSelector k) :=
        execAll_cons_of_next (exec_select k hwritten) _
    _ = .next (readData ((writeData value (s.setSelector k)).setSelector k)) :=
        execAll_cons_of_next (exec_of_isBus (.rdData Config.sizeMin) _ rfl rfl hreselected) []

/-- Settles O27: the second selection is in bounds as the first, and the read finds the ORed word. -/
theorem aBlownFuseIsSensedAtOnce : Obligations.ABlownFuseIsSensedAtOnce := by
  intro k value s hphase hwf hk
  have hselected : (s.setSelector k).inBounds = true := (State.inBounds_iff _).2 hk
  have hreselected : ((writeData value (s.setSelector k)).setSelector k).inBounds = true := by
    rw [State.inBounds_iff, State.setSelector_validCount, writeData_validCount]
    exact hk
  have hfuse : (writeData value (s.setSelector k)).readFuse k.toNat =
      Memory.read s.fuses k.toNat ||| value.setWidth 32 :=
    (read_writeData_fuses value (s.setSelector k) k.toNat hwf).trans (if_pos ⟨hselected, rfl⟩)
  refine ⟨_, execAll_blow_sense k value hphase, ?_, ?_⟩
  · rw [readData_of_inBounds _ hreselected]
    rfl
  · rw [readData_of_inBounds _ hreselected]
    simp [hfuse, zext64]

end Sys2Proof.Machine
end

section
/-! PROOFS. The lifecycle: creation, the attaches, RESET, and the phases in which a stimulus completes
(spec/10_state.md R29, spec/41_lifecycle.md R85, R92 to R97, spec/60_exceptions.md R103, R104). -/

namespace Sys2Proof.Machine

/-! ### Creation, and the store with no medium -/

/-- Settles O31: the fields of `State.reset`. -/
theorem theCreationState : Obligations.TheCreationState :=
  ⟨rfl, rfl, rfl, fun _ => rfl, rfl, rfl, rfl, rfl, rfl, rfl, rfl, rfl⟩

/-- Settles O45: nothing is attached, populated, recorded or pending. -/
theorem theCreationStateMeetsTheInvariant : Obligations.TheCreationStateMeetsTheInvariant where
  fusesCanonical := rfl
  fusesBelowCount := rfl
  countBounded := Nat.zero_le _
  backingByPhase := rfl
  mediumAgrees := nofun
  readOnlyWithoutMedium := fun _ _ => rfl
  unpopulated := fun _ => rfl
  populated := nofun
  errorByPhase := rfl
  rejectedByPhase := rfl
  pendingMedia := nofun

theorem exec_of_accepted {i : Instr} {s : State} (hoperands : operandsDelivered i = true)
    (haccepts : phaseAccepts s.phase i = true) : exec i s = .next (effect i s) :=
  (exec_eq_next_iff i s _).2 ⟨hoperands, haccepts, rfl⟩

/-- Settles O32: the effect is that update. -/
theorem attachNoneLeavesTheStoreUnpopulated : Obligations.AttachNoneLeavesTheStoreUnpopulated := fun s hphase =>
  exec_of_accepted (i := .attachNone) rfl ((Phase.acceptsAttach_iff s.phase).2 hphase)

/-- Settles O33: by the invariant the count is 0 there, so no selector is below it. -/
theorem theUnpopulatedStoreDropsDataAccesses : Obligations.TheUnpopulatedStoreDropsDataAccesses := by
  intro size value s hinv hmin hmax hphase
  have hbus : s.phase.acceptsBus = true := by rw [hphase]; rfl
  have hout : s.validCount.toNat ≤ s.selector.toNat := by
    rw [hinv.unpopulated (.inr hphase)]
    exact Nat.zero_le _
  exact ⟨(rdDataReadsTheSelectedFuse size s hmin hmax hbus).2 hout,
    wrDataOutOfBoundsOnlyRecords size value s hmin hmax hbus hout⟩

/-- Settles O34: with no medium RESET stores an empty array, the capacity and the phase. -/
theorem resetZeroFillsAVolatileStore : Obligations.ResetZeroFillsAVolatileStore := by
  intro s hphase hb
  have hexec : exec .reset s = .next (resetController s) := exec_of_accepted (i := .reset) rfl hphase
  rw [resetController_of_backing_none s hb] at hexec
  exact ⟨_, hexec, fun _ => rfl, rfl, rfl, rfl, rfl, rfl, rfl, rfl, rfl, rfl, rfl, rfl⟩

/-- Settles O35: with a medium RESET is the identity. -/
theorem resetLeavesAMediumStoreAlone : Obligations.ResetLeavesAMediumStoreAlone := by
  intro s m hphase hb
  have hexec : exec .reset s = .next (resetController s) := exec_of_accepted (i := .reset) rfl hphase
  rwa [resetController_of_backing_some s m hb] at hexec

/-! ### The attach with a medium, check by check -/

/-- The greatest length an attach accepts is 4096 bytes (R94). -/
theorem countOfLength_le_capacity_iff (len : Nat) : countOfLength len ≤ Config.capacity ↔ len ≤ 4096 := by
  simp only [countOfLength, ceilDiv, Config.fuseBytes, Config.capacity]
  omega

theorem capacity_lt_countOfLength_iff (len : Nat) : Config.capacity < countOfLength len ↔ 4096 < len := by
  rw [← not_le, countOfLength_le_capacity_iff, not_le]

/-- The count of a medium that fits is stored without narrowing (R94). -/
theorem toNat_ofNat_countOfLength {len : Nat} (hfits : len ≤ 4096) :
    (BitVec.ofNat 16 (countOfLength len)).toNat = countOfLength len := by
  have hcap : Config.capacity < 2 ^ 16 := by decide
  have hcount := (countOfLength_le_capacity_iff len).2 hfits
  exact (BitVec.toNat_ofNat _ 16).trans (Nat.mod_eq_of_lt (hcount.trans_lt hcap))

/-- The first check of an attach that fails, with the error it raises and the calls made up to it (R103, R104). -/
inductive AttachCheckFails (m : Medium) : AttachError → List MediumCallKind → Prop where
  | permission (h0 : m.failsCall 0 = true) :
      AttachCheckFails m .permissionDenied [.queryWriteCapability, .requestPermissions]
  | sizeQuery (h0 : m.failsCall 0 = false) (h1 : m.failsCall 1 = true) :
      AttachCheckFails m .sizeQueryFailed [.queryWriteCapability, .requestPermissions, .length]
  | capacity (h0 : m.failsCall 0 = false) (h1 : m.failsCall 1 = false) (hlarge : 4096 < m.length) :
      AttachCheckFails m .mediumTooLarge [.queryWriteCapability, .requestPermissions, .length]
  | load (h0 : m.failsCall 0 = false) (h1 : m.failsCall 1 = false) (hfits : m.length ≤ 4096)
      (h2 : m.failsCall 2 = true) :
      AttachCheckFails m .loadFailed [.queryWriteCapability, .requestPermissions, .length, .readAll]

/-- All checks of an attach pass. -/
structure AttachChecksPass (m : Medium) : Prop where
  permission : m.failsCall 0 = false
  sizeQuery : m.failsCall 1 = false
  capacity : m.length ≤ 4096
  load : m.failsCall 2 = false

theorem attachChecks_pass_or_fail (m : Medium) : AttachChecksPass m ∨ ∃ e kinds, AttachCheckFails m e kinds := by
  cases h0 : m.failsCall 0 with
  | true => exact .inr ⟨_, _, .permission h0⟩
  | false =>
    cases h1 : m.failsCall 1 with
    | true => exact .inr ⟨_, _, .sizeQuery h0 h1⟩
    | false =>
      rcases Nat.lt_or_ge 4096 m.length with hlarge | hfits
      · exact .inr ⟨_, _, .capacity h0 h1 hlarge⟩
      · cases h2 : m.failsCall 2 with
        | true => exact .inr ⟨_, _, .load h0 h1 hfits h2⟩
        | false => exact .inl ⟨h0, h1, hfits, h2⟩

/-- The state a failed attach leaves, with the medium as it was left, the count and the calls made (R96; log 16). -/
def failedAttach (m : Medium) (s : State) (e : AttachError) (left : Medium) (count : BitVec 16)
    (calls : List MediumCall) : State :=
  { s with
    phase := .failed
    readOnly := !m.writable
    validCount := count
    attachError := some e
    rejected := some left
    mediumCalls := s.mediumCalls ++ calls }

/-- The state a successful attach leaves (R93 to R95). -/
def loadedAttach (m : Medium) (s : State) : State :=
  { s with
    phase := .withMedium
    readOnly := !m.writable
    validCount := BitVec.ofNat 16 (countOfLength m.length)
    fuses := loadWords m.answered.answered.answered (countOfLength m.length) s.fuses
    backing := some m.answered.answered.answered
    mediumCalls := s.mediumCalls ++
      [.queryWriteCapability m.writable, .requestPermissions true m.writable true, .length (some m.length),
        .readAll m.length true] }

theorem attachWithMedium_of_pass {m : Medium} (s : State) (hpass : AttachChecksPass m) :
    attachWithMedium m s = loadedAttach m s := by
  obtain ⟨h0, h1, hfits, h2⟩ := hpass
  simp [attachWithMedium_eq, h0, h1, h2, capacity_lt_countOfLength_iff, Nat.not_lt.2 hfits, loadedAttach,
    afterPermission, State.callMedium]

/-- A failed attach has made the calls up to the failing check and written nothing to the medium. -/
theorem attachWithMedium_of_fail {m : Medium} {e : AttachError} {kinds : List MediumCallKind} (s : State)
    (hfail : AttachCheckFails m e kinds) :
    ∃ left count calls, attachWithMedium m s = failedAttach m s e left count calls ∧
      calls.map MediumCall.kind = kinds ∧ left.length = m.length ∧ ∀ a, left.byte a = m.byte a := by
  rw [attachWithMedium_eq]
  cases hfail with
  | permission h0 =>
    rw [if_pos h0]
    exact ⟨_, _, _, rfl, rfl, rfl, fun _ => rfl⟩
  | sizeQuery h0 h1 =>
    refine ⟨m.answered.answered, s.validCount,
      [.queryWriteCapability m.writable, .requestPermissions true m.writable true, .length none], ?_,
      rfl, rfl, fun _ => rfl⟩
    simp [h0, h1, failedAttach, afterPermission, State.callMedium, State.raiseAttachError]
  | capacity h0 h1 hlarge =>
    refine ⟨m.answered.answered, s.validCount,
      [.queryWriteCapability m.writable, .requestPermissions true m.writable true, .length (some m.length)], ?_,
      rfl, rfl, fun _ => rfl⟩
    simp [h0, h1, capacity_lt_countOfLength_iff, hlarge, failedAttach, afterPermission, State.callMedium,
      State.raiseAttachError]
  | load h0 h1 hfits h2 =>
    refine ⟨m.answered.answered.answered, BitVec.ofNat 16 (countOfLength m.length),
      [.queryWriteCapability m.writable, .requestPermissions true m.writable true, .length (some m.length),
        .readAll m.length false], ?_, rfl, rfl, fun _ => rfl⟩
    simp [h0, h1, h2, capacity_lt_countOfLength_iff, Nat.not_lt.2 hfits, failedAttach, afterPermission,
      State.callMedium]

/-- The words of the array after a successful attach: the medium's below the count, the old ones from it on. -/
theorem read_loadedAttach_fuses (m : Medium) (s : State) (j : Nat) (hwf : Memory.wf s.fuses = true) :
    Memory.read (loadedAttach m s).fuses j =
      if j < countOfLength m.length then m.word j else Memory.read s.fuses j :=
  (read_loadWords m.answered.answered.answered j _ _ hwf).2

theorem exec_attachMedium (m : Medium) {s : State} (hphase : s.phase = .unattached) :
    exec (.attachMedium m) s = .next (attachWithMedium m s) :=
  exec_of_accepted (i := .attachMedium m) rfl ((Phase.acceptsAttach_iff s.phase).2 hphase)

/-- Settles O36: the fields of `loadedAttach`. -/
theorem attachMediumLoadsTheArray : Obligations.AttachMediumLoadsTheArray := by
  intro m s hphase hwf h0 h1 h2 hfits
  have hexec := exec_attachMedium m hphase
  rw [attachWithMedium_of_pass s ⟨h0, h1, hfits, h2⟩] at hexec
  exact ⟨loadedAttach m s, m.answered.answered.answered, hexec, rfl, toNat_ofNat_countOfLength hfits, rfl,
    fun j hj => (read_loadedAttach_fuses m s j hwf).trans (if_pos hj),
    fun j hj => (read_loadedAttach_fuses m s j hwf).trans (if_neg (Nat.not_lt.2 hj)),
    rfl, rfl, rfl, fun _ => rfl, rfl, rfl, rfl, rfl, rfl, rfl, rfl⟩

/-- The recorded error changes by an attach with a medium only. -/
theorem effect_attachError {i : Instr} (s : State) (hi : ∀ m, i ≠ .attachMedium m) :
    (effect i s).attachError = s.attachError := by
  cases i with
  | rdSelector | wrSelector | rdData | wrData | rdInvalid | wrInvalid => rw [effect_frame_of_isBus s rfl]
  | reset => rw [effect, resetController_frame]
  | attachNone => rfl
  | attachMedium m => exact absurd rfl (hi m)

/-- Settles O37: each failing check by `attachWithMedium_of_fail`, the passing ones by `attachWithMedium_of_pass`. -/
theorem attachErrorsInOrder : Obligations.AttachErrorsInOrder := by
  refine ⟨fun m s hphase => ⟨fun e kinds hcheck => ?_, fun h0 h1 hfits h2 => ?_⟩, fun i s t hexec hne => ?_⟩
  · have hfail : AttachCheckFails m e kinds := by
      rcases hcheck with ⟨h0, rfl, rfl⟩ | ⟨h0, h1, rfl, rfl⟩ | ⟨h0, h1, hlarge, rfl, rfl⟩ |
        ⟨h0, h1, hfits, h2, rfl, rfl⟩
      · exact .permission h0
      · exact .sizeQuery h0 h1
      · exact .capacity h0 h1 hlarge
      · exact .load h0 h1 hfits h2
    obtain ⟨left, count, calls, hstate, hkinds, hlength, hbytes⟩ := attachWithMedium_of_fail s hfail
    refine ⟨_, left, exec_attachMedium m hphase, ?_⟩
    rw [hstate]
    refine ⟨rfl, rfl, ?_, rfl, hlength, hbytes, rfl, rfl, rfl, rfl, rfl, rfl⟩
    rw [← hkinds]
    exact List.map_append
  · refine ⟨_, exec_attachMedium m hphase, ?_⟩
    rw [attachWithMedium_of_pass s ⟨h0, h1, hfits, h2⟩]
    rfl
  · obtain ⟨_, _, rfl⟩ := (exec_eq_next_iff i s t).1 hexec
    by_contra hnone
    exact hne (effect_attachError s fun m hm => hnone ⟨m, hm⟩)

/-! ### The transition table -/

/-- A pair is listed exactly where `exec` accepts the operation (R85). -/
theorem pairListed_eq_phaseAccepts (p : Phase) (i : Instr) : pairListed p i.operation = phaseAccepts p i := by
  cases i <;> cases p <;> rfl

theorem busAccess_of_not_accepted {size : Nat} (hsize : sizeDelivered size = true) {s : State}
    (hphase : s.phase.acceptsBus = false) (f : State → State) :
    busAccess size s f = .refused (.notAcceptedInPhase s.phase) := by
  simp [busAccess, hsize, hphase]

theorem lifecycle_of_not_accepted {accepted : Bool} (h : accepted = false) (s : State) (f : State → State) :
    lifecycle accepted s f = .refused (.notAcceptedInPhase s.phase) := by
  simp [lifecycle, h]

theorem exec_of_not_accepted {i : Instr} {s : State} (hwf : i.wf = true) (h : phaseAccepts s.phase i = false) :
    exec i s = .refused (.notAcceptedInPhase s.phase) := by
  cases i with
  | rdSelector | wrSelector | rdData | wrData =>
    rw [exec]
    exact busAccess_of_not_accepted hwf h _
  | rdInvalid | wrInvalid =>
    obtain ⟨hoffset, hsize⟩ := Bool.and_eq_true_iff.1 hwf
    rw [exec]
    exact (undecodedAccess_of_not_decoded (Bool.eq_false_of_not_eq_true' hoffset) _ s _).trans
      (busAccess_of_not_accepted hsize h _)
  | reset | attachNone | attachMedium => exact lifecycle_of_not_accepted h s _

/-- Settles O39: the table's pairs are those `exec` accepts. -/
theorem stimuliAreAcceptedAsTheTableLists : Obligations.StimuliAreAcceptedAsTheTableLists := by
  intro i s hwf
  rw [pairListed_eq_phaseAccepts]
  exact ⟨fun h => ⟨_, exec_of_accepted (operandsDelivered_of_wf i hwf) h⟩, exec_of_not_accepted hwf⟩

/-- A bus access keeps the phase, and the table lists that. -/
theorem transitionListed_of_isBus {p : Phase} {op : Operation} (hp : p.acceptsBus = true) (hop : op.isBus = true) :
    transitionListed p op p = true := by
  cases op with
  | rdSelector | wrSelector | rdData | wrData | rdInvalid | wrInvalid => cases p <;> exact hp
  | reset | attachNone | attachMedium => cases hop

theorem transitionListed_reset {s : State} (hinv : s.Inv) (hp : s.phase.acceptsReset = true) :
    transitionListed s.phase .reset (resetController s).phase = true := by
  have hbacking := hinv.backingByPhase
  obtain hb | ⟨m, hb⟩ := Option.eq_none_or_eq_some s.backing
  · rw [resetController_of_backing_none s hb]
    rw [hb] at hbacking
    cases hphase : s.phase with
    | volatileUnpopulated | volatilePopulated => rfl
    | withMedium => simp [hphase] at hbacking
    | unattached | failed => simp [hphase, Phase.acceptsReset] at hp
  · rw [hb] at hbacking
    rw [resetController_of_backing_some s m hb, of_decide_eq_true hbacking.symm]
    rfl

theorem transitionListed_attachMedium (m : Medium) (s : State) :
    transitionListed .unattached .attachMedium (attachWithMedium m s).phase = true := by
  rcases attachChecks_pass_or_fail m with hpass | ⟨e, kinds, hfail⟩
  · rw [attachWithMedium_of_pass s hpass]
    rfl
  · obtain ⟨left, count, calls, hstate, _⟩ := attachWithMedium_of_fail s hfail
    rw [hstate]
    rfl

/-- Settles O38: row by row; the invariant tells RESET's two rows apart. -/
theorem thePhaseFollowsTheTable : Obligations.ThePhaseFollowsTheTable := by
  intro i s t hinv hexec
  obtain ⟨_, haccepts, rfl⟩ := (exec_eq_next_iff i s t).1 hexec
  cases i with
  | rdSelector | wrSelector | rdData | wrData | rdInvalid | wrInvalid =>
    rw [effect_phase_of_isBus s rfl]
    exact transitionListed_of_isBus haccepts rfl
  | reset => exact transitionListed_reset hinv haccepts
  | attachNone =>
    rw [(Phase.acceptsAttach_iff s.phase).1 haccepts]
    rfl
  | attachMedium m =>
    rw [(Phase.acceptsAttach_iff s.phase).1 haccepts]
    exact transitionListed_attachMedium m s

/-! ### A failed controller -/

/-- There is no fault, so an outcome that is no next state is a refusal. -/
theorem isRefused_of_ne_next {o : Host.Outcome State Fault Refusal} (h : ∀ t, o ≠ .next t) : isRefused o = true := by
  cases o with
  | next t => exact absurd rfl (h t)
  | fault r => exact nomatch r
  | refused r => rfl

theorem phaseAccepts_failed (i : Instr) : phaseAccepts .failed i = false := by
  cases i <;> rfl

/-- Settles O40: phase `Failed` accepts no operation, so no step completes. -/
theorem aFailedControllerTakesNoStep : Obligations.AFailedControllerTakesNoStep := by
  intro s hphase
  refine isRefused_of_ne_next fun u hstep => ?_
  obtain ⟨_, rest, i, _, _, hexec⟩ := (step_eq_next_iff s u).1 hstep
  obtain ⟨_, haccepts, _⟩ := (exec_eq_next_iff i _ u).1 hexec
  have haccepts' : phaseAccepts s.phase i = true := haccepts
  rw [hphase, phaseAccepts_failed] at haccepts'
  cases haccepts'

end Sys2Proof.Machine
end

section
/-! PROOFS. The write-through, and what bus accesses do to the medium (spec/00_scope.md R8, spec/20_memory.md R51,
spec/40_register_access.md R70, R73, spec/41_lifecycle.md R91, R101). -/

namespace Sys2Proof

open Machine

/-! ### A word and its bytes -/

theorem toNat_wordLe (b0 b1 b2 b3 : Byte) :
    (wordLe b0 b1 b2 b3).toNat = b0.toNat + 2 ^ 8 * b1.toNat + 2 ^ 16 * b2.toNat + 2 ^ 24 * b3.toNat := by
  simp only [wordLe, toNat_append_add]
  omega

theorem toNat_extractByte (w : Word) (lsb : Nat) : (w.extractLsb' lsb 8).toNat = w.toNat / 2 ^ lsb % 2 ^ 8 := by
  rw [BitVec.extractLsb'_toNat, Nat.shiftRight_eq_div_pow]

theorem le32_wordLe (b0 b1 b2 b3 : Byte) : le32 (wordLe b0 b1 b2 b3) = [b0, b1, b2, b3] := by
  have := b0.isLt
  have := b1.isLt
  have := b2.isLt
  have := b3.isLt
  simp only [le32, List.cons.injEq, and_true]
  refine ⟨?_, ?_, ?_, ?_⟩ <;> apply BitVec.eq_of_toNat_eq <;> rw [toNat_extractByte, toNat_wordLe] <;> omega

theorem wordLe_extractBytes (w : Word) :
    wordLe (w.extractLsb' 0 8) (w.extractLsb' 8 8) (w.extractLsb' 16 8) (w.extractLsb' 24 8) = w := by
  have := w.isLt
  apply BitVec.eq_of_toNat_eq
  rw [toNat_wordLe, toNat_extractByte, toNat_extractByte, toNat_extractByte, toNat_extractByte]
  omega

/-- Settles O43, both ways by the numbers of a word and of its bytes. -/
theorem wordAndBytesAreInverse : Obligations.WordAndBytesAreInverse := ⟨le32_wordLe, wordLe_extractBytes⟩

theorem le32_getD (w : Word) {j : Nat} (hj : j < 4) : (le32 w).getD j 0 = w.extractLsb' (8 * j) 8 := by
  interval_cases j <;> rfl

/-! ### A `write_at` that returns `ok` -/

/-- It leaves the given bytes, as far as the medium reaches (R91). -/
theorem Medium.byte_writeAt_of_ok (m : Medium) (o : Nat) (bs : List Byte) {j : Nat} (hwf : m.wf = true)
    (hb : bs.length = 4) (hok : m.nextOk = true) (hj : j < 4) (hin : o + j < m.length) :
    (m.writeAt o bs).byte (o + j) = bs.getD j 0 := by
  rw [m.byte_writeAt o bs _ ((Medium.wf_iff m).1 hwf).1 hb, if_pos (by omega), Medium.writtenBytes, if_pos hok,
    Nat.add_sub_cancel_left]

end Sys2Proof

namespace Sys2Proof.Machine

/-! ### What WR_DATA leaves of the medium -/

theorem writeData_backing_of_none (value : BusValue) {s : State} (hb : s.backing = none) :
    (writeData value s).backing = none := by
  rw [← Option.isNone_iff_eq_none, ← Option.not_isSome, writeData_backing_isSome, hb]
  rfl

/-- The medium after WR_DATA, against the medium before it: a byte that differs is one of the four at the selected
fuse's offset, and the write-through has been made. -/
structure MediumWrittenThrough (s : State) (m m' : Medium) : Prop where
  length : m'.length = m.length
  writable : m'.writable = m.writable
  changed : ∀ a, m'.byte a ≠ m.byte a →
    s.inBounds = true ∧ s.readOnly = false ∧ byteOffset s.selector.toNat ≤ a ∧
      a < byteOffset s.selector.toNat + 4 ∧ a < m.length

theorem MediumWrittenThrough.refl (s : State) (m : Medium) : MediumWrittenThrough s m m :=
  ⟨rfl, rfl, fun _ hne => absurd rfl hne⟩

theorem MediumWrittenThrough.of_writeAt {s : State} {m : Medium} (hwf : m.wf = true) (hin : s.inBounds = true)
    (hr : s.readOnly = false) (w : Word) :
    MediumWrittenThrough s m (m.writeAt (byteOffset s.selector.toNat) (le32 w)) := by
  refine ⟨rfl, rfl, fun a hne => ?_⟩
  by_contra hout
  refine hne (m.byte_writeAt_outside _ (le32 w) a ((Medium.wf_iff m).1 hwf).1 rfl ?_)
  by_contra hinside
  exact hout ⟨hin, hr, by omega, by omega, by omega⟩

theorem writeData_medium (value : BusValue) {s : State} {m : Medium} (hb : s.backing = some m) (hwf : m.wf = true) :
    ∃ m', (writeData value s).backing = some m' ∧ MediumWrittenThrough s m m' := by
  rcases writeData_cases value s with ⟨_, heq⟩ | ⟨_, _, heq⟩ | ⟨m₀, hin, hm₀, hr, heq⟩
  · exact ⟨m, by rw [heq]; exact hb, .refl s m⟩
  · exact ⟨m, by rw [heq]; exact hb, .refl s m⟩
  · cases hb.symm.trans hm₀
    exact ⟨_, by rw [heq]; rfl, .of_writeAt hwf hin hr _⟩

/-- Settles O12: the array by `read_writeData_fuses`, the medium by `writeData_medium`, the rest by the frame. -/
theorem wrDataOrsTheSelectedFuse : Obligations.WrDataOrsTheSelectedFuse := by
  intro size value s hmin hmax hphase hwf hmedia hsel
  have hin := s.inBounds_iff.2 hsel
  have hread := fun j => read_writeData_fuses value s j hwf
  have hdiag : (writeData value s).diagnostics = s.diagnostics := by
    rw [writeData_of_inBounds value s hin, State.writeThrough_diagnostics, State.writeFuse_diagnostics]
  refine ⟨writeData value s, exec_of_isBus (.wrData size value) s rfl (sizeDelivered_of_le hmin hmax) hphase,
    (hread _).trans (if_pos ⟨hin, rfl⟩), fun j hj => (hread j).trans (if_neg fun h => hj h.2),
    writeData_phase value s, writeData_selector value s, writeData_validCount value s, writeData_readOnly value s,
    by rw [writeData_frame], by rw [writeData_frame], writeData_readResults value s, hdiag, by rw [writeData_frame],
    writeData_backing_of_none value, fun m hm => ?_⟩
  obtain ⟨m', hm', hchange⟩ := writeData_medium value hm (hmedia m hm)
  refine ⟨m', hm', hchange.length, hchange.writable, fun a houtside => ?_⟩
  by_contra hne
  obtain ⟨_, _, hlow, hhigh, _⟩ := hchange.changed a hne
  omega

/-- Settles O14: the two ways an in-bounds WR_DATA ends. -/
theorem writeThroughStoresTheUpdatedWord : Obligations.WriteThroughStoresTheUpdatedWord := by
  intro size value s hmin hmax hphase hwf hsel
  have hin := s.inBounds_iff.2 hsel
  have hexec : exec (.wrData size value) s = .next (writeData value s) :=
    exec_of_isBus (.wrData size value) s rfl (sizeDelivered_of_le hmin hmax) hphase
  have hword := readFuse_blown_selector value s hwf
  refine ⟨fun hblocked => ?_, fun m hm hr hmwf => ?_⟩
  · rw [writeData_of_not_writable value hin hblocked] at hexec
    exact ⟨_, hexec, rfl, rfl, hword⟩
  · have hcells := ((Medium.wf_iff m).1 hmwf).1
    rw [writeData_of_writable value hin hm hr, writtenThrough, hword] at hexec
    refine ⟨_, _, hexec, rfl, rfl, rfl, rfl, fun a ha => m.byte_writeAt_outside _ _ a hcells rfl ha,
      fun hok j hj hlen => ?_, hword, rfl⟩
    have hnext : m.nextOk = true := by rw [Medium.nextOk_eq, hok]; rfl
    exact (m.byte_writeAt_of_ok _ _ hmwf rfl hnext hj hlen).trans (le32_getD _ hj)

/-! ### Every bus access -/

/-- No bus access but WR_DATA has to do with the medium (R51). -/
theorem effect_medium_of_ne_wrData {i : Instr} (s : State) (hbus : i.operation.isBus = true)
    (hne : i.operation ≠ .wrData) :
    (effect i s).backing = s.backing ∧ (effect i s).mediumCalls = s.mediumCalls := by
  cases i with
  | rdSelector | rdData | rdInvalid =>
    rw [effect_of_isRead s rfl]
    exact ⟨rfl, rfl⟩
  | wrSelector | wrInvalid => exact ⟨rfl, rfl⟩
  | wrData size value => exact absurd rfl hne
  | reset | attachNone | attachMedium => cases hbus

/-- Settles O41: WR_DATA calls the medium in the last of its three ways only. -/
theorem busAccessesCallTheMediumAtMostOnce : Obligations.BusAccessesCallTheMediumAtMostOnce := by
  intro i s t hbus hexec
  obtain ⟨_, _, rfl⟩ := (exec_eq_next_iff i s t).1 hexec
  refine ⟨fun ⟨hop, hsel, hsome, hr⟩ => ?_, fun hnot => ?_⟩
  · cases i with
    | wrData size value =>
      obtain ⟨m, hm⟩ := Option.isSome_iff_exists.1 hsome
      rw [effect, writeData_of_writable value (s.inBounds_iff.2 hsel) hm hr]
      exact ⟨_, rfl, rfl⟩
    | rdSelector | wrSelector | rdData | rdInvalid | wrInvalid | reset | attachNone | attachMedium => cases hop
  · cases i with
    | wrData size value =>
      rw [effect]
      rcases writeData_cases value s with ⟨_, heq⟩ | ⟨_, _, heq⟩ | ⟨m, hin, hm, hr, _⟩
      · rw [heq, State.diagnose_mediumCalls]
      · rw [heq]
        rfl
      · exact absurd ⟨rfl, s.inBounds_iff.1 hin, by rw [hm]; rfl, hr⟩ hnot
    | rdSelector | wrSelector | rdData | rdInvalid | wrInvalid =>
      exact (effect_medium_of_ne_wrData s hbus nofun).2
    | reset | attachNone | attachMedium => cases hbus

/-- With a medium attached no attach is accepted. -/
theorem State.Inv.not_acceptsAttach {s : State} {m : Medium} (hinv : s.Inv) (hm : s.backing = some m) :
    s.phase.acceptsAttach = false := by
  have hphase := hinv.backingByPhase
  rw [hm] at hphase
  rw [of_decide_eq_true hphase.symm]
  rfl

theorem effect_medium {i : Instr} {s : State} {m : Medium} (hinv : s.Inv) (hm : s.backing = some m)
    (haccepts : phaseAccepts s.phase i = true) :
    ∃ m', (effect i s).backing = some m' ∧ m'.length = m.length ∧ m'.writable = m.writable ∧
      ∀ a, m'.byte a ≠ m.byte a →
        (∃ size value, i = .wrData size value) ∧ s.selector.toNat < s.validCount.toNat ∧ m.writable = true ∧
          4 * s.selector.toNat ≤ a ∧ a < 4 * s.selector.toNat + 4 ∧ a < m.length := by
  obtain ⟨hmwf, hreadOnly, _⟩ := hinv.mediumAgrees m hm
  cases i with
  | wrData size value =>
    obtain ⟨m', hm', hchange⟩ := writeData_medium value hm hmwf
    refine ⟨m', hm', hchange.length, hchange.writable, fun a hne => ?_⟩
    obtain ⟨hin, hr, hrange⟩ := hchange.changed a hne
    rw [hreadOnly, Bool.not_eq_false'] at hr
    exact ⟨⟨size, value, rfl⟩, s.inBounds_iff.1 hin, hr, hrange⟩
  | rdSelector | wrSelector | rdData | rdInvalid | wrInvalid =>
    exact ⟨m, (effect_medium_of_ne_wrData s rfl (by nofun)).1.trans hm, rfl, rfl, fun a hne => absurd rfl hne⟩
  | reset => exact ⟨m, by rwa [effect, resetController_of_backing_some s m hm], rfl, rfl, fun a hne => absurd rfl hne⟩
  | attachNone | attachMedium => exact absurd ((hinv.not_acceptsAttach hm).symm.trans haccepts) nofun

/-- Settles O42: bus accesses keep `read_only` and the count, RESET does nothing, and no attach is accepted. -/
theorem anAttachedMediumChangesOnlyByWriteThrough : Obligations.AnAttachedMediumChangesOnlyByWriteThrough := by
  intro i s t m hinv hm hexec
  obtain ⟨_, haccepts, rfl⟩ := (exec_eq_next_iff i s t).1 hexec
  have hkept : (effect i s).readOnly = s.readOnly ∧ (effect i s).validCount = s.validCount := by
    cases i with
    | rdSelector | wrSelector | rdData | wrData | rdInvalid | wrInvalid =>
      exact ⟨effect_readOnly_of_isBus s rfl, effect_validCount_of_isBus _ s rfl⟩
    | reset =>
      rw [effect, resetController_of_backing_some s m hm]
      exact ⟨rfl, rfl⟩
    | attachNone | attachMedium => exact absurd ((hinv.not_acceptsAttach hm).symm.trans haccepts) nofun
  exact ⟨hkept.1, hkept.2, effect_medium hinv hm haccepts⟩

end Sys2Proof.Machine
end

section
/-! PROOFS. The invariant, and the coherence of array and medium, under every step; the round trip across sessions
(spec/10_state.md R17 to R20, R24, R27, R30, spec/41_lifecycle.md R96, R100). -/

namespace Sys2Proof.Machine

/-! ### The invariant under updates of the state -/

/-- The invariant speaks neither of the selector nor of the outputs of bus accesses and medium calls. -/
theorem State.Inv.with_outputs {s : State} (hinv : s.Inv) (selector : Word) (readResults : List BusValue)
    (diagnostics : List Diagnostic) (mediumCalls : List MediumCall) :
    State.Inv { s with
      selector := selector, readResults := readResults, diagnostics := diagnostics, mediumCalls := mediumCalls } :=
  { hinv with }

/-- Taking the first stimulus off the list keeps the invariant. -/
theorem State.Inv.with_pending_tail {s : State} {t : Stimulus} {rest : List Stimulus} (hinv : s.Inv)
    (hpending : s.pending = t :: rest) : State.Inv { s with pending := rest } :=
  { hinv with
    pendingMedia := fun t' ht' => hinv.pendingMedia t' (by rw [hpending]; exact List.mem_cons_of_mem t ht') }

/-- The attached medium may change in its bytes and in its oracle's position. -/
theorem State.Inv.with_medium {s : State} {m m' : Medium} (hinv : s.Inv) (hm : s.backing = some m)
    (hwf : m'.wf = true) (hlength : m'.length = m.length) (hwritable : m'.writable = m.writable)
    (calls : List MediumCall) : State.Inv { s with backing := some m', mediumCalls := calls } :=
  { hinv with
    backingByPhase := by rw [← hinv.backingByPhase, hm]; rfl
    mediumAgrees := fun m₀ hm₀ => by
      cases hm₀
      obtain ⟨_, hreadOnly, hcount⟩ := hinv.mediumAgrees m hm
      rw [hlength, hwritable]
      exact ⟨hwf, hreadOnly, hcount⟩
    readOnlyWithoutMedium := nofun }

theorem State.Inv.blown {s : State} (hinv : s.Inv) (value : BusValue) (hin : s.inBounds = true) :
    (blown value s).Inv :=
  { hinv with
    fusesCanonical := Memory.wf_write _ _ _ hinv.fusesCanonical
    fusesBelowCount := Memory.below_write _ (s.inBounds_iff.1 hin) hinv.fusesBelowCount }

theorem writeData_keeps_inv (value : BusValue) {s : State} (hinv : s.Inv) : (writeData value s).Inv := by
  rcases writeData_cases value s with ⟨_, heq⟩ | ⟨hin, _, heq⟩ | ⟨m, hin, hm, _, heq⟩
  · rw [heq]
    exact hinv.with_outputs _ _ _ _
  · rw [heq]
    exact hinv.blown value hin
  · obtain ⟨hwf, _⟩ := hinv.mediumAgrees m hm
    rw [heq]
    exact (hinv.blown value hin).with_medium hm (m.wf_writeAt _ _ hwf) rfl rfl _

theorem Phase.ne_failed_of_acceptsReset {p : Phase} (h : p.acceptsReset = true) : p ≠ .failed := by
  rintro rfl
  cases h

theorem resetController_keeps_inv {s : State} (hinv : s.Inv) (hphase : s.phase.acceptsReset = true) :
    (resetController s).Inv := by
  obtain hb | ⟨m, hb⟩ := Option.eq_none_or_eq_some s.backing
  · have hne := Phase.ne_failed_of_acceptsReset hphase
    rw [resetController_of_backing_none s hb]
    exact {
      fusesCanonical := rfl
      fusesBelowCount := rfl
      countBounded := le_rfl
      backingByPhase := by rw [hb]; rfl
      mediumAgrees := fun m hm => nomatch hb.symm.trans hm
      readOnlyWithoutMedium := fun _ _ => hinv.readOnlyWithoutMedium hb hne
      unpopulated := nofun
      populated := fun _ => rfl
      errorByPhase := hinv.errorByPhase.trans (decide_eq_false hne)
      rejectedByPhase := hinv.rejectedByPhase.trans (decide_eq_false hne)
      pendingMedia := hinv.pendingMedia }
  · rwa [resetController_of_backing_some s m hb]

/-! ### The invariant under the attaches -/

/-- An unattached controller has no medium. -/
theorem State.Inv.backing_eq_none_of_unattached {s : State} (hinv : s.Inv) (hphase : s.phase = .unattached) :
    s.backing = none := by
  have hbacking := hinv.backingByPhase
  rw [hphase] at hbacking
  exact Option.isNone_iff_eq_none.1 (Option.isSome_eq_false_iff.1 hbacking)

/-- Its array lists nothing, so it lies below any count. -/
theorem State.Inv.fuses_below_of_unattached {s : State} (hinv : s.Inv) (hphase : s.phase = .unattached) (n : Nat) :
    Memory.below n s.fuses = true := by
  rw [hinv.fuses_eq_nil_of_unpopulated (.inl hphase)]
  rfl

theorem attachNoMedium_keeps_inv {s : State} (hinv : s.Inv) (hphase : s.phase = .unattached) :
    (attachNoMedium s).Inv where
  fusesCanonical := hinv.fusesCanonical
  fusesBelowCount := hinv.fuses_below_of_unattached hphase _
  countBounded := Nat.zero_le _
  backingByPhase := rfl
  mediumAgrees := nofun
  readOnlyWithoutMedium := fun _ _ => rfl
  unpopulated := fun _ => rfl
  populated := nofun
  errorByPhase := hinv.errorByPhase.trans (by rw [hphase]; rfl)
  rejectedByPhase := hinv.rejectedByPhase.trans (by rw [hphase]; rfl)
  pendingMedia := hinv.pendingMedia

theorem failedAttach_keeps_inv {s : State} (hinv : s.Inv) (hphase : s.phase = .unattached) (m : Medium)
    (e : AttachError) (left : Medium) {count : BitVec 16} (hcount : count.toNat ≤ Config.capacity)
    (calls : List MediumCall) : (failedAttach m s e left count calls).Inv where
  fusesCanonical := hinv.fusesCanonical
  fusesBelowCount := hinv.fuses_below_of_unattached hphase _
  countBounded := hcount
  backingByPhase := by
    rw [failedAttach, hinv.backing_eq_none_of_unattached hphase]
    rfl
  mediumAgrees := fun _ hm => nomatch (hinv.backing_eq_none_of_unattached hphase).symm.trans hm
  readOnlyWithoutMedium := fun _ hne => absurd rfl hne
  unpopulated := nofun
  populated := nofun
  errorByPhase := rfl
  rejectedByPhase := rfl
  pendingMedia := hinv.pendingMedia

theorem loadedAttach_keeps_inv {s : State} (hinv : s.Inv) (hphase : s.phase = .unattached) {m : Medium}
    (hwf : m.wf = true) (hfits : m.length ≤ 4096) : (loadedAttach m s).Inv where
  fusesCanonical := (read_loadWords _ 0 _ _ hinv.fusesCanonical).1
  fusesBelowCount := by
    rw [loadedAttach, toNat_ofNat_countOfLength hfits]
    exact below_loadWords _ _ _ _ le_rfl (hinv.fuses_below_of_unattached hphase _)
  countBounded := (toNat_ofNat_countOfLength hfits).trans_le ((countOfLength_le_capacity_iff _).2 hfits)
  backingByPhase := rfl
  mediumAgrees := fun m' hm' => by
    cases hm'
    exact ⟨hwf, rfl, toNat_ofNat_countOfLength hfits⟩
  readOnlyWithoutMedium := nofun
  unpopulated := nofun
  populated := nofun
  errorByPhase := hinv.errorByPhase.trans (by rw [hphase]; rfl)
  rejectedByPhase := hinv.rejectedByPhase.trans (by rw [hphase]; rfl)
  pendingMedia := hinv.pendingMedia

theorem attachWithMedium_keeps_inv {s : State} (hinv : s.Inv) (hphase : s.phase = .unattached) {m : Medium}
    (hwf : m.wf = true) : (attachWithMedium m s).Inv := by
  have hcount := attachWithMedium_validCount_le m s hinv.countBounded
  rcases attachChecks_pass_or_fail m with hpass | ⟨e, kinds, hfail⟩
  · rw [attachWithMedium_of_pass s hpass]
    exact loadedAttach_keeps_inv hinv hphase hwf hpass.capacity
  · obtain ⟨left, count, calls, hstate, _⟩ := attachWithMedium_of_fail s hfail
    rw [hstate] at hcount ⊢
    exact failedAttach_keeps_inv hinv hphase m e left hcount calls

/-! ### The invariant under every step -/

theorem effect_keeps_inv {i : Instr} {s : State} (hinv : s.Inv) (haccepts : phaseAccepts s.phase i = true)
    (hmedium : ∀ m, i = .attachMedium m → m.wf = true) : (effect i s).Inv := by
  cases i with
  | rdSelector | rdData | rdInvalid =>
    rw [effect_of_isRead s rfl]
    exact hinv.with_outputs _ _ _ _
  | wrSelector | wrInvalid => exact hinv.with_outputs _ _ _ _
  | wrData size value => exact writeData_keeps_inv value hinv
  | reset => exact resetController_keeps_inv hinv haccepts
  | attachNone => exact attachNoMedium_keeps_inv hinv ((Phase.acceptsAttach_iff _).1 haccepts)
  | attachMedium m =>
    exact attachWithMedium_keeps_inv hinv ((Phase.acceptsAttach_iff _).1 haccepts) (hmedium m rfl)

/-- Settles O46: the invariant survives taking the stimulus, and each operation's effect; the medium that an attach
hands over was pending. -/
theorem everyStepKeepsTheInvariant : Obligations.EveryStepKeepsTheInvariant := by
  intro s s' hinv hstep
  obtain ⟨t, rest, i, hpending, hdecode, hexec⟩ := (step_eq_next_iff s s').1 hstep
  obtain ⟨_, haccepts, rfl⟩ := (exec_eq_next_iff i _ s').1 hexec
  refine effect_keeps_inv (hinv.with_pending_tail hpending) haccepts ?_
  rintro m rfl
  rw [medium_of_decode_eq_attachMedium hdecode]
  exact hinv.pendingMedia t (by rw [hpending]; exact List.mem_cons_self)

/-! ### Array and medium stay coherent -/

theorem State.coherent_of_backing_none {s : State} (hb : s.backing = none) : s.Coherent :=
  fun _ hm => nomatch hb.symm.trans hm

/-- What the load makes of a medium agrees with it (R95). -/
theorem le32_word {m : Medium} {j : Nat} (hin : 4 * j + 4 ≤ m.length) :
    le32 (m.word j) = [m.byte (4 * j), m.byte (4 * j + 1), m.byte (4 * j + 2), m.byte (4 * j + 3)] := by
  rw [m.word_of_within hin, le32_wordLe]

/-- A `write_at` that returns `ok` leaves the word at its own bytes. -/
theorem bytes_writeAt_same {m : Medium} (hwf : m.wf = true) (hok : m.nextOk = true) (w : Word) {o : Nat}
    (hin : o + 4 ≤ m.length) :
    [(m.writeAt o (le32 w)).byte o, (m.writeAt o (le32 w)).byte (o + 1), (m.writeAt o (le32 w)).byte (o + 2),
      (m.writeAt o (le32 w)).byte (o + 3)] = le32 w := by
  have hbyte := fun j (hj : j < 4) => m.byte_writeAt_of_ok o (le32 w) hwf rfl hok hj (by omega)
  have h0 : (m.writeAt o (le32 w)).byte o = _ := hbyte 0 (by decide)
  rw [h0, hbyte 1 (by decide), hbyte 2 (by decide), hbyte 3 (by decide)]
  rfl

/-- It leaves every four bytes that meet none of those. -/
theorem bytes_writeAt_outside {m : Medium} (hwf : m.wf = true) (w : Word) {o a : Nat} (h : a + 4 ≤ o ∨ o + 4 ≤ a) :
    [(m.writeAt o (le32 w)).byte a, (m.writeAt o (le32 w)).byte (a + 1), (m.writeAt o (le32 w)).byte (a + 2),
      (m.writeAt o (le32 w)).byte (a + 3)] = [m.byte a, m.byte (a + 1), m.byte (a + 2), m.byte (a + 3)] := by
  have hbyte := fun b => m.byte_writeAt_outside o (le32 w) b ((Medium.wf_iff m).1 hwf).1 rfl
  rw [hbyte a (by omega), hbyte (a + 1) (by omega), hbyte (a + 2) (by omega), hbyte (a + 3) (by omega)]

/-- The write-through keeps every valid word coherent: the written one by its bytes, any other as its four bytes lie
outside those written. -/
theorem writtenThrough_coherent (value : BusValue) {s : State} {m : Medium} (hinv : s.Inv) (hcoh : s.Coherent)
    (hm : s.backing = some m) (hr : s.readOnly = false) : (writtenThrough value s m).Coherent := by
  obtain ⟨hwf, _⟩ := hinv.mediumAgrees m hm
  intro m' hm' _ hcalls j hj hlen
  cases hm'
  have hok : m.nextOk = true := by
    simpa [MediumCall.isFailedWrite] using hcalls _ (List.mem_append_right _ (List.mem_singleton_self _))
  change le32 ((blown value s).readFuse j) = _
  by_cases hsel : j = s.selector.toNat
  · subst hsel
    exact (bytes_writeAt_same hwf hok _ hlen).symm
  · have hold := hcoh m hm hr (fun c hc => hcalls c (List.mem_append_left _ hc)) j hj hlen
    rw [readFuse_blown_other value s hsel hinv.fusesCanonical, hold]
    exact (bytes_writeAt_outside hwf _ (by rw [byteOffset, Config.fuseBytes]; omega)).symm

theorem writeData_keeps_coherent (value : BusValue) {s : State} (hinv : s.Inv) (hcoh : s.Coherent) :
    (writeData value s).Coherent := by
  rcases writeData_cases value s with ⟨_, heq⟩ | ⟨_, hblocked, heq⟩ | ⟨m, _, hm, hr, heq⟩
  · rw [heq]
    exact hcoh
  · rw [heq]
    rcases hblocked with hb | hr
    · exact State.coherent_of_backing_none hb
    · exact fun m _ hr' => nomatch hr.symm.trans hr'
  · rw [heq]
    exact writtenThrough_coherent value hinv hcoh hm hr

/-- A successful attach makes array and medium coherent. -/
theorem loadedAttach_coherent {s : State} {m : Medium} (hwf : Memory.wf s.fuses = true) (hfits : m.length ≤ 4096) :
    (loadedAttach m s).Coherent := by
  intro m' hm' _ _ j hj hlen
  cases hm'
  have hcount : j < countOfLength m.length := hj.trans_eq (toNat_ofNat_countOfLength hfits)
  have hread : (loadedAttach m s).readFuse j = m.word j :=
    (read_loadedAttach_fuses m s j hwf).trans (if_pos hcount)
  rw [hread]
  exact le32_word hlen

theorem attachWithMedium_coherent {s : State} (hinv : s.Inv) (hphase : s.phase = .unattached) (m : Medium) :
    (attachWithMedium m s).Coherent := by
  rcases attachChecks_pass_or_fail m with hpass | ⟨e, kinds, hfail⟩
  · rw [attachWithMedium_of_pass s hpass]
    exact loadedAttach_coherent hinv.fusesCanonical hpass.capacity
  · obtain ⟨left, count, calls, hstate, _⟩ := attachWithMedium_of_fail s hfail
    rw [hstate]
    exact State.coherent_of_backing_none (hinv.backing_eq_none_of_unattached hphase)

theorem resetController_keeps_coherent {s : State} (hcoh : s.Coherent) : (resetController s).Coherent := by
  obtain hb | ⟨m, hb⟩ := Option.eq_none_or_eq_some s.backing
  · refine State.coherent_of_backing_none ?_
    rw [resetController_frame]
    exact hb
  · rwa [resetController_of_backing_some s m hb]

theorem effect_keeps_coherent {i : Instr} {s : State} (hinv : s.Inv) (hcoh : s.Coherent)
    (haccepts : phaseAccepts s.phase i = true) : (effect i s).Coherent := by
  cases i with
  | rdSelector | rdData | rdInvalid =>
    rw [effect_of_isRead s rfl]
    exact hcoh
  | wrSelector | wrInvalid => exact hcoh
  | wrData size value => exact writeData_keeps_coherent value hinv hcoh
  | reset => exact resetController_keeps_coherent hcoh
  | attachNone => exact State.coherent_of_backing_none rfl
  | attachMedium m => exact attachWithMedium_coherent hinv ((Phase.acceptsAttach_iff _).1 haccepts) m

/-- Settles O47: WR_DATA keeps coherence, an attach that loads establishes it, and the others leave array and medium
as they are, or leave no medium. -/
theorem everyStepKeepsTheMediumCoherent : Obligations.EveryStepKeepsTheMediumCoherent := by
  intro s s' hinv hcoh hstep
  obtain ⟨t, rest, i, hpending, _, hexec⟩ := (step_eq_next_iff s s').1 hstep
  obtain ⟨_, haccepts, rfl⟩ := (exec_eq_next_iff i _ s').1 hexec
  exact effect_keeps_coherent (hinv.with_pending_tail hpending) hcoh haccepts

/-! ### The round trip -/

theorem le32_injective : Function.Injective le32 := by
  intro w w' h
  simp only [le32, List.cons.injEq, and_true] at h
  obtain ⟨h0, h1, h2, h3⟩ := h
  rw [← wordLe_extractBytes w, h0, h1, h2, h3, wordLe_extractBytes]

/-- Of a coherent, writable, aligned medium the load makes the very array. -/
theorem read_loadedAttach_eq_readFuse {s : State} {m : Medium} (hinv : s.Inv) (hcoh : s.Coherent)
    (hm : s.backing = some m) (hr : s.readOnly = false) (hcalls : ∀ c ∈ s.mediumCalls, c.isFailedWrite = false)
    (haligned : m.length % 4 = 0) (j : Nat) :
    Memory.read (loadedAttach m State.reset).fuses j = s.readFuse j := by
  obtain ⟨_, _, hcount⟩ := hinv.mediumAgrees m hm
  rw [read_loadedAttach_fuses m State.reset j rfl, ← hcount]
  split
  next hj =>
    have hlen : 4 * j + 4 ≤ m.length := by
      rw [hcount] at hj
      simp only [countOfLength, ceilDiv, Config.fuseBytes] at hj
      omega
    exact le32_injective ((le32_word hlen).trans (hcoh m hm hr hcalls j hj hlen).symm)
  next hj => exact (Memory.read_of_below (Nat.le_of_not_lt hj) hinv.fusesBelowCount).symm

/-- The medium that a write-through leaves has its old length, and its oracle stands one call further. -/
theorem writtenThrough_backing {value : BusValue} {s : State} {m m' : Medium}
    (hm' : (writtenThrough value s m).backing = some m') :
    m'.length = m.length ∧ ∀ k, m'.failsCall k = m.failsCall (k + 1) := by
  cases hm'
  exact ⟨rfl, m.failsCall_answered⟩

theorem writtenThrough_calls_ok {value : BusValue} {s : State} {m : Medium} (hok : m.failsCall 0 = false)
    (hcalls : ∀ c ∈ s.mediumCalls, c.isFailedWrite = false) :
    ∀ c ∈ (writtenThrough value s m).mediumCalls, c.isFailedWrite = false := by
  refine List.forall_mem_append.2 ⟨hcalls, List.forall_mem_singleton.2 ?_⟩
  simp [MediumCall.isFailedWrite, Medium.nextOk_eq, hok]

/-- Settles O48: the write leaves a coherent state, so the array that the attach loads is the array as written. -/
theorem aReattachedMediumReproducesTheFuses : Obligations.AReattachedMediumReproducesTheFuses := by
  intro size value s t u m m' hinv hcoh _ hm hwritable hcalls hsel haligned h0 h1 h2 h3 hwrite hm' hattach
  obtain ⟨_, _, rfl⟩ := (exec_eq_next_iff _ s t).1 hwrite
  obtain ⟨_, _, rfl⟩ := (exec_eq_next_iff _ _ u).1 hattach
  rw [effect] at hm'
  obtain ⟨_, hreadOnly, hcount⟩ := hinv.mediumAgrees m hm
  have hin := s.inBounds_iff.2 hsel
  have hr : s.readOnly = false := by rw [hreadOnly, hwritable]; rfl
  have hstate := writeData_of_writable value hin hm hr
  obtain ⟨hlength, hfails⟩ := writtenThrough_backing (hstate ▸ hm')
  have hfits : m'.length ≤ 4096 := by
    rw [hlength, ← countOfLength_le_capacity_iff, ← hcount]
    exact hinv.countBounded
  have hloaded : effect (.attachMedium m') State.reset = loadedAttach m' State.reset :=
    attachWithMedium_of_pass _ ⟨(hfails 0).trans h1, (hfails 1).trans h2, hfits, (hfails 2).trans h3⟩
  rw [hloaded]
  have hreload := read_loadedAttach_eq_readFuse (writeData_keeps_inv value hinv)
    (writeData_keeps_coherent value hinv hcoh) hm' ((writeData_readOnly value s).trans hr)
    (hstate ▸ writtenThrough_calls_ok h0 hcalls) (hlength ▸ haligned)
  have hword := fun j => read_writeData_fuses value s j hinv.fusesCanonical
  refine ⟨rfl, BitVec.eq_of_toNat_eq ?_, ?_, fun j hj => ?_⟩
  · rw [hcount, ← hlength]
    exact toNat_ofNat_countOfLength hfits
  · exact (hreload _).trans ((hword _).trans (if_pos ⟨hin, rfl⟩))
  · exact (hreload j).trans ((hword j).trans (if_neg fun h => hj h.2))

end Sys2Proof.Machine
end

section
/-! PROOFS. What the register window shows of the medium: nothing (spec/10_state.md R23, R28). -/

namespace Sys2Proof.Machine

/-! ### Each access answers alike in states that look alike -/

/-- WR_DATA's update of the array, from the array, the selector and the count alone. -/
theorem writeData_fuses (value : BusValue) (s : State) :
    (writeData value s).fuses = if s.inBounds = true then (blown value s).fuses else s.fuses := by
  cases hb : s.inBounds
  · rw [writeData_of_not_inBounds value s hb, State.diagnose_fuses, if_neg nofun]
  · rw [writeData_of_inBounds value s hb, State.writeThrough_fuses, if_pos rfl]
    rfl

theorem State.sameThroughWindow.inBounds_eq {s t : State} (hsame : s.sameThroughWindow t) :
    t.inBounds = s.inBounds := by
  obtain ⟨_, hselector, _, hcount, _, _⟩ := hsame
  rw [State.inBounds, State.inBounds, hselector, hcount]

theorem State.sameThroughWindow.readValue_eq {s t : State} (hsame : s.sameThroughWindow t) (i : Instr) :
    readValue t i = readValue s i := by
  have hbounds := hsame.inBounds_eq
  obtain ⟨_, hselector, hfuses, _, _, _⟩ := hsame
  cases i with
  | rdSelector size => rw [readValue, readValue, hselector]
  | rdData size => rw [readValue, readValue, hbounds, hselector, s.readFuse_congr t hfuses]
  | rdInvalid | wrSelector | wrData | wrInvalid | reset | attachNone | attachMedium => rfl

theorem State.sameThroughWindow.expectedRecord_eq {s t : State} (hsame : s.sameThroughWindow t) (i : Instr) :
    expectedRecord t i = expectedRecord s i := by
  have hbounds := hsame.inBounds_eq
  obtain ⟨_, hselector, _, _, _, _⟩ := hsame
  cases i with
  | rdData size => rw [expectedRecord_rdData, expectedRecord_rdData, hbounds, hselector]
  | wrData size value => rw [expectedRecord_wrData, expectedRecord_wrData, hbounds, hselector]
  | rdSelector | wrSelector | rdInvalid | wrInvalid | reset | attachNone | attachMedium => rfl

theorem State.sameThroughWindow.effect_selector_eq {s t : State} (hsame : s.sameThroughWindow t) (i : Instr) :
    (effect i t).selector = (effect i s).selector := by
  obtain ⟨_, hselector, _, _, _, _⟩ := hsame
  cases i with
  | wrSelector size value => rfl
  | rdSelector | rdData | wrData | rdInvalid | wrInvalid | reset | attachNone | attachMedium =>
    rw [effect_selector t (by nofun), effect_selector s (by nofun), hselector]

theorem State.sameThroughWindow.effect_fuses_eq {s t : State} (hsame : s.sameThroughWindow t) {i : Instr}
    (hbus : i.operation.isBus = true) : (effect i t).fuses = (effect i s).fuses := by
  have hbounds := hsame.inBounds_eq
  obtain ⟨_, hselector, hfuses, _, _, _⟩ := hsame
  cases i with
  | rdSelector | rdData | rdInvalid =>
    rw [effect_of_isRead t rfl, effect_of_isRead s rfl]
    exact hfuses
  | wrSelector | wrInvalid => exact hfuses
  | wrData size value =>
    rw [effect, effect, writeData_fuses, writeData_fuses, hbounds, blown, blown, hselector,
      s.readFuse_congr t hfuses, State.writeFuse_fuses, State.writeFuse_fuses, hfuses]
  | reset | attachNone | attachMedium => cases hbus

/-- A bus access keeps two states alike. -/
theorem State.sameThroughWindow.effect {s t : State} (hsame : s.sameThroughWindow t) {i : Instr}
    (hbus : i.operation.isBus = true) : (effect i s).sameThroughWindow (effect i t) := by
  obtain ⟨hphase, _, _, hcount, hresults, hdiagnostics⟩ := id hsame
  refine ⟨?_, hsame.effect_selector_eq i, hsame.effect_fuses_eq hbus, ?_, ?_, ?_⟩
  · rw [effect_phase_of_isBus t hbus, effect_phase_of_isBus s hbus, hphase]
  · rw [effect_validCount_of_isBus i t hbus, effect_validCount_of_isBus i s hbus, hcount]
  · rw [effect_readResults, effect_readResults, hresults, hsame.readValue_eq]
  · rw [effect_diagnostics, effect_diagnostics, hdiagnostics, hsame.expectedRecord_eq]

/-- One step of the simulation: what completes in the one state completes in the other, and they stay alike. -/
theorem State.sameThroughWindow.exec {s t s' : State} (hsame : s.sameThroughWindow t) {i : Instr}
    (hbus : i.operation.isBus = true) (hexec : exec i s = .next s') :
    ∃ t', exec i t = .next t' ∧ s'.sameThroughWindow t' := by
  obtain ⟨hoperands, haccepts, rfl⟩ := (exec_eq_next_iff i s s').1 hexec
  have haccepts' : phaseAccepts t.phase i = true := by
    rw [phaseAccepts_of_isBus _ i hbus] at haccepts ⊢
    exact hsame.1.trans haccepts
  exact ⟨_, exec_of_accepted hoperands haccepts', hsame.effect hbus⟩

/-! ### Every sequence of accesses -/

theorem execAll_cons_eq_next_iff (i : Instr) (rest : List Instr) (s u : State) :
    execAll (i :: rest) s = .next u ↔ ∃ t, exec i s = .next t ∧ execAll rest t = .next u := by
  rw [execAll]
  cases exec i s <;> simp

/-- Settles O49, by induction over the sequence, for all pairs of states alike. -/
theorem theWindowHidesTheMedium : Obligations.TheWindowHidesTheMedium := by
  intro is
  induction is with
  | nil =>
    intro s t s' _ hsame hrun
    cases hrun
    exact ⟨t, rfl, hsame⟩
  | cons i rest ih =>
    intro s t s' hbus hsame hrun
    obtain ⟨hi, hrest⟩ := List.forall_mem_cons.1 hbus
    obtain ⟨s₁, hs₁, hrun₁⟩ := (execAll_cons_eq_next_iff i rest s s').1 hrun
    obtain ⟨t₁, ht₁, hsame₁⟩ := hsame.exec hi hs₁
    obtain ⟨t', hrun', hsame'⟩ := ih s₁ t₁ s' hrest hsame₁ hrun₁
    exact ⟨t', (execAll_cons_eq_next_iff i rest t t').2 ⟨t₁, ht₁, hrun'⟩, hsame'⟩

end Sys2Proof.Machine
end
